-- ==== Sys2Proof/Word.lean ====
section
/-! DEFINITION. The bit vectors of `gost_core`: the widths of spec/00_scope.md R6 and the 330-bit command bundle of
spec/30_encoding.md R70. Bit 0 is the least significant bit (R11). -/

namespace Sys2Proof

/-- A 4-bit value, 0 to 15 (00_scope.md glossary). -/
abbrev Nibble := BitVec 4

/-- An 8-bit value. -/
abbrev Byte := BitVec 8

/-- The core's 32-bit word; `+` on it is the wrapping `+32` of R12. -/
abbrev Word := BitVec 32

/-- The 256 bits of `key_in` (30_encoding.md R72). -/
abbrev KeyBits := BitVec 256

/-- The 64 bits of `blk_in` and of `BLK_OUT` (30_encoding.md R73, R77). -/
abbrev BlockBits := BitVec 64

/-- The number of bits of a command bundle (30_encoding.md R70). -/
abbrev bundleBits : Nat := 330

/-- The command bundle `(blk_in, key_in, key_len, cmd_op)`, `cmd_op` in bits 1:0 (30_encoding.md R70). -/
abbrev Bundle := BitVec 330

end Sys2Proof
end

