-- ==== Sys2Proof/Config.lean ====
section
/-! DEFINITION. What an implementation fixes: the S-box constants `SBOX` with their premise (open, 00_scope.md R7), and the byte order of
the caller's block buffer (open, R9), with the fixed sizes of R6, R8 and R10 and the named S-box instantiations of
spec/93_implementation_defined.md and spec/95_test_vectors.md. -/

namespace Sys2Proof

/-- One S-box: 16 entries of 4 bits (40_table_rom.md R101). -/
abbrev SBoxRow := Vector Nibble 16

/-- The eight S-boxes (40_table_rom.md R101). Index 0 holds `SBOX[1]`, index 7 holds `SBOX[8]`. -/
abbrev SBox := Vector SBoxRow 8

/-- A row is a permutation of 0 to 15: no two entries are equal (40_table_rom.md R102). -/
def SBoxRow.wf (row : SBoxRow) : Bool := decide (row.toList.Nodup)

/-- The premise on `SBOX`: every row is a permutation (40_table_rom.md R102). A set that fails it is refused at
configuration (R107; 93_implementation_defined.md U2). -/
def SBox.wf (sb : SBox) : Bool := sb.toList.all SBoxRow.wf

/-- The spec's test instantiation `SBOX_ID`: every `SBOX[s][n] = n` (93_implementation_defined.md, 95_test_vectors.md). -/
def Config.sboxId : SBox :=
  let row : SBoxRow := #v[0, 1, 2, 3, 4, 5, 6, 7, 8, 9, 10, 11, 12, 13, 14, 15]
  #v[row, row, row, row, row, row, row, row]

theorem Config.sboxId_wf : Config.sboxId.wf = true := by decide

/-- A configuration of the core: S-box values with the premise that every row is a permutation (00_scope.md R7,
40_table_rom.md R102). A set that breaks the premise is no configuration (R107), so the core, whose edges take one of
these, cannot run with it. The field values given here only show that a configuration exists. -/
structure SBoxConfig where
  /-- `SBOX`. -/
  sbox : SBox := Config.sboxId
  /-- The premise. -/
  wf : sbox.wf = true := by exact Config.sboxId_wf
deriving DecidableEq, Repr, Inhabited

/-- The core's configuration: an OPEN parameter (00_scope.md R7; 92_eei_decisions.md D8; log entry 3). No body: nothing
about the values can be proved but the premise. -/
opaque Config.sboxConfig : SBoxConfig

/-- The core's S-box values. -/
abbrev Config.sbox : SBox := Config.sboxConfig.sbox

/-- A byte order of the 8-byte block buffer (00_scope.md R9): entry `j` is the buffer byte that lands in bits
`8j+7:8j` of `(word 1, word 0)`. DESIGN CHOICE (safe, log entry 4): any placement of the eight bytes can be named,
since the spec leaves both the grouping and the order open. -/
abbrev BlockByteOrder := Vector (Fin 8) 8

/-- The host adapter's byte order: an OPEN parameter (00_scope.md R9; 92_eei_decisions.md D7; log entry 4). No core
rule depends on it. -/
opaque Config.blockByteOrder : BlockByteOrder

/-- The suggested default order `LE`: word 0 is bytes 0 to 3 with byte 0 least significant, word 1 is bytes 4 to 7
(00_scope.md R9). -/
def Config.orderLE : BlockByteOrder := #v[0, 1, 2, 3, 4, 5, 6, 7]

/-- The one valid key length, in bytes (00_scope.md R6, 41_key_schedule.md R122). -/
def Config.keyBytes : Nat := 32

/-- Rounds per block (00_scope.md R6), and `XFORM_LATENCY`, the clock edges a transform spends in RUN (R10). -/
def Config.rounds : Nat := 32

/-- The rotation distance of the round function (00_scope.md R6). -/
def Config.rotation : Nat := 11

/-- Candidate set A (93_implementation_defined.md G1): from general knowledge, a guess; no meaning uses it. -/
def Config.sboxA : SBox := #v[
  #v[13, 2, 8, 4, 6, 15, 11, 1, 10, 9, 3, 14, 5, 0, 12, 7],
  #v[4, 11, 2, 14, 15, 0, 8, 13, 3, 12, 9, 7, 5, 10, 6, 1],
  #v[12, 1, 10, 15, 9, 2, 6, 8, 0, 13, 3, 4, 14, 7, 5, 11],
  #v[2, 12, 4, 1, 7, 10, 11, 6, 8, 5, 3, 15, 13, 0, 14, 9],
  #v[7, 13, 14, 3, 0, 6, 9, 10, 1, 2, 8, 5, 11, 12, 4, 15],
  #v[10, 0, 9, 14, 6, 3, 15, 5, 1, 13, 12, 7, 11, 4, 2, 8],
  #v[15, 1, 8, 14, 6, 11, 3, 4, 9, 7, 2, 13, 12, 0, 5, 10],
  #v[14, 4, 13, 1, 2, 15, 11, 8, 3, 10, 6, 12, 5, 9, 0, 7]]

/-- Candidate set B (93_implementation_defined.md G2): from general knowledge, a guess; no meaning uses it. -/
def Config.sboxB : SBox := #v[
  #v[4, 10, 9, 2, 13, 8, 0, 14, 6, 11, 1, 12, 7, 15, 5, 3],
  #v[14, 11, 4, 12, 6, 13, 15, 10, 2, 3, 8, 1, 0, 7, 5, 9],
  #v[5, 8, 1, 13, 10, 3, 4, 2, 14, 15, 12, 7, 6, 0, 9, 11],
  #v[7, 13, 10, 1, 0, 8, 9, 15, 14, 4, 6, 12, 11, 2, 5, 3],
  #v[6, 12, 7, 1, 5, 15, 13, 8, 4, 10, 9, 14, 0, 3, 11, 2],
  #v[4, 11, 10, 0, 7, 2, 1, 13, 3, 6, 8, 5, 9, 12, 15, 14],
  #v[13, 11, 4, 1, 3, 15, 5, 9, 0, 10, 14, 7, 6, 8, 2, 12],
  #v[1, 15, 13, 0, 5, 7, 10, 4, 9, 2, 3, 14, 6, 11, 8, 12]]

end Sys2Proof
end

