-- ==== Sys2Proof/Syntax.lean ====
section
/-! DEFINITION. The instructions of `gost_core`: the four commands of its command port (00_scope.md R2,
30_encoding.md R71), each with exactly the operand fields it reads (R75). -/

namespace Sys2Proof

/-- A command with its operands, one constructor per row of spec/opcode_table.json. -/
inductive Instr where
  /-- `NOP`, no operand (43_block_transform.md R174). -/
  | nop
  /-- `CONSTRUCT`: the key length in bytes and the 256 key bits (41_key_schedule.md R123, R124). -/
  | construct (len : Byte) (key : KeyBits)
  /-- `ENCRYPT`: the input block, its first word in bits 31:0 (43_block_transform.md R170). -/
  | encrypt (blk : BlockBits)
  /-- `DECRYPT`: the input block, its first word in bits 31:0 (43_block_transform.md R171). -/
  | decrypt (blk : BlockBits)
deriving DecidableEq, Repr

end Sys2Proof
end

