-- ==== Sys2Proof/WellFormed.lean ====
section
/-! DEFINITION. Which data the core admits: a byte order that uses each buffer byte once (00_scope.md R9), and a bundle
that fits the command port (30_encoding.md R70, R78). The check on an S-box set is `SBox.wf` of Config.lean, where the
configuration carries it. -/

namespace Sys2Proof

/-- A byte order places each of the eight buffer bytes once (00_scope.md R9). -/
def BlockByteOrder.wf (order : BlockByteOrder) : Bool := decide (order.toList.Nodup)

/-- A number stands for a bundle when it has no bit above the 330 bits of the command port (30_encoding.md R70). -/
def bundleFits (w : Nat) : Bool := decide (w >>> bundleBits = 0)

/-- A number stands for a `cmd_op` when it fits the 2 bits of the port; the core has no input for a larger one
(30_encoding.md R78). -/
def opFits (op : Nat) : Bool := decide (op < 4)

/-- Every command is well formed: its operands are bit vectors of exactly their ports' widths, and no operand value is
illegal: a `len` other than 32 is a defined error response, not an ill-formed command (30_encoding.md R74, R78). -/
def Instr.wf : Instr → Bool
  | .nop => true
  | .construct _ _ => true
  | .encrypt _ => true
  | .decrypt _ => true

end Sys2Proof
end

