-- ==== Sys2Proof/Decode.lean ====
section
/-! DEFINITION. Decoding and encoding of the 330-bit command bundle (30_encoding.md R70, R71, R78). -/

namespace Sys2Proof

/-- Why a host-side number is no command (30_encoding.md R78). -/
inductive DecodeError where
  /-- The number has bits above the 330 bits of the command port. -/
  | bundleTooWide
  /-- The number given for `cmd_op` is above 3 (93_implementation_defined.md U7). -/
  | opTooWide
deriving DecidableEq, Repr

/-- The bundle field `op`, bits 1:0 (R70). -/
def bundleOp (b : Bundle) : BitVec 2 := b.extractLsb' 0 2

/-- The bundle field `len`, bits 9:2 (R70). -/
def bundleLen (b : Bundle) : Byte := b.extractLsb' 2 8

/-- The bundle field `key`, bits 265:10 (R70). -/
def bundleKey (b : Bundle) : KeyBits := b.extractLsb' 10 256

/-- The bundle field `blk`, bits 329:266 (R70). -/
def bundleBlk (b : Bundle) : BlockBits := b.extractLsb' 266 64

/-- The command that the four input ports select (R71); the fields it does not read are dropped (R75). All four
values of `op` are defined, so this is total. -/
def decodeFields (op : BitVec 2) (len : Byte) (key : KeyBits) (blk : BlockBits) : Instr :=
  if op = 0b00#2 then .nop
  else if op = 0b01#2 then .construct len key
  else if op = 0b10#2 then .encrypt blk
  else .decrypt blk

/-- Decode one bundle (R70, R71). -/
def decodeBundle (b : Bundle) : Instr :=
  decodeFields (bundleOp b) (bundleLen b) (bundleKey b) (bundleBlk b)

/-- The field of `len` bits from bit `start` up of a bundle given as a number (00_scope.md R11). -/
def natField (w start len : Nat) : BitVec len := BitVec.ofNat len (w >>> start)

/-- Decode a number of any size, refusing by name one that the port cannot carry (R78). The fields are those of
`decodeBundle`, taken from the number. -/
def decodeWord (w : Nat) : Except DecodeError Instr :=
  if bundleFits w then
    .ok (decodeFields (natField w 0 2) (natField w 2 8) (natField w 10 256) (natField w 266 64))
  else .error .bundleTooWide

/-- A `cmd_op` taken from a wider host-side word: any value above 3 is refused (R78). -/
def decodeOp (op : Nat) : Except DecodeError (BitVec 2) :=
  if opFits op then .ok (BitVec.ofNat 2 op) else .error .opTooWide

/-- The bytes of a bundle, lowest first, as one number. -/
def bytesToNat : List Byte → Nat
  | [] => 0
  | b :: rest => b.toNat + 256 * bytesToNat rest

/-- Decode a bundle given as bytes, the byte with bits 7:0 first. -/
def decodeBytes (bytes : List Byte) : Except DecodeError Instr := decodeWord (bytesToNat bytes)

/-- The bits of `w` below `nbits`: `w mod 2^nbits`. -/
def lowBits (nbits w : Nat) : Nat := if w >>> nbits = 0 then w else w % 2 ^ nbits

/-- The instruction whose bits below `nbits` are those of `w` and whose bits above are 0, as
spec/opcode_table.json numbers them: bit 0 is bit 0 of the bundle (log entry 8). -/
def decodeTableWord (nbits w : Nat) : Option Instr :=
  match decodeWord (lowBits nbits w) with
  | .ok i => some i
  | .error _ => none

/-- The `op` field of a command (R71). -/
def Instr.op : Instr → BitVec 2
  | .nop => 0b00#2
  | .construct _ _ => 0b01#2
  | .encrypt _ => 0b10#2
  | .decrypt _ => 0b11#2

/-- The `len` field of a command's bundle; 0 where the command does not read it (R75, R80). -/
def Instr.len : Instr → Byte
  | .construct len _ => len
  | .nop => 0
  | .encrypt _ => 0
  | .decrypt _ => 0

/-- The `key` field of a command's bundle; 0 where the command does not read it (R75, R80). -/
def Instr.key : Instr → KeyBits
  | .construct _ key => key
  | .nop => 0
  | .encrypt _ => 0
  | .decrypt _ => 0

/-- The `blk` field of a command's bundle; 0 where the command does not read it (R75, R80). -/
def Instr.blk : Instr → BlockBits
  | .encrypt blk => blk
  | .decrypt blk => blk
  | .nop => 0
  | .construct _ _ => 0

/-- The bundle with these four fields (R70). -/
def bundleOf (op : BitVec 2) (len : Byte) (key : KeyBits) (blk : BlockBits) : Bundle :=
  blk ++ key ++ len ++ op

/-- The bundle of a command: `(blk, key, len, op)`, the fields it does not read driven to 0 (R70, R80). -/
def encode (i : Instr) : Bundle := bundleOf i.op i.len i.key i.blk

end Sys2Proof
end

