-- ==== Sys2Proof/Machine/State.lean ====
section
/-! DEFINITION. The state of `gost_core` as plain data: the registers of spec/10_state.md R20, the host's input frames
(R31), and whether a reset edge has been seen (70_reset_and_hazards.md R234); with the reasons a step can stop. -/

namespace Sys2Proof.Machine

/-- The values of register `MODE`: 0 is encrypt, 1 is decrypt (10_state.md R26). -/
inductive Mode where
  /-- `MODE = 0`. -/
  | encrypt
  /-- `MODE = 1`. -/
  | decrypt
deriving DecidableEq, Repr

/-- The values of register `FSM`: 0 is IDLE, 1 is RUN (10_state.md R27). -/
inductive Fsm where
  /-- `FSM = 0`: waiting for a command. -/
  | idle
  /-- `FSM = 1`: a transform is running. -/
  | run
deriving DecidableEq, Repr

/-- The eight subkeys `K[0..7]` (10_state.md R21). -/
abbrev Subkeys := Vector Word 8

/-- One clock cycle's levels on the input ports (10_state.md R31). `clk` is the step itself. -/
structure InPorts where
  /-- `rst`: synchronous reset, active high. -/
  rst : Bool
  /-- `cmd_valid`: the host presents a command. -/
  cmdValid : Bool
  /-- `cmd_op`: the command's opcode. -/
  cmdOp : BitVec 2
  /-- `key_len`: the key length in bytes. -/
  keyLen : Byte
  /-- `key_in`: key byte `j` in bits `8j+7:8j`. -/
  keyIn : KeyBits
  /-- `blk_in`: the block, first word in bits 31:0. -/
  blkIn : BlockBits
deriving DecidableEq, Repr

/-- The ports of a cycle in which the host neither resets nor presents a command. -/
def InPorts.idle : InPorts :=
  { rst := false, cmdValid := false, cmdOp := 0, keyLen := 0, keyIn := 0, blkIn := 0 }

/-- The machine's state. The first ten fields are the registers of 10_state.md R20, all of them and no others. -/
structure State where
  /-- `K[0..7]` (R21). -/
  k : Subkeys
  /-- `CTX_VALID` (R22). -/
  ctxValid : Bool
  /-- `N1` (R23). -/
  n1 : Word
  /-- `N2` (R24). -/
  n2 : Word
  /-- `RND` (R25). -/
  rnd : BitVec 5
  /-- `MODE` (R26). -/
  mode : Mode
  /-- `FSM` (R27). -/
  fsm : Fsm
  /-- `BLK_OUT` (R28). -/
  blkOut : BlockBits
  /-- `RSP_VALID` (R29). -/
  rspValid : Bool
  /-- `RSP_CODE` (R30). -/
  rspCode : BitVec 2
  /-- The model's own field: a reset edge has happened since power-up, so the registers have values
  (70_reset_and_hazards.md R234, log entry 2). -/
  resetSeen : Bool
  /-- The model's own field, the host's part: what the host drives on the input ports, the current cycle first. After
  the last listed cycle the host presents nothing (DESIGN CHOICE, log entry 1). -/
  inputs : List InPorts
deriving DecidableEq, Repr

/-- Why a step stops with a fault. -/
inductive Fault where
  /-- A register is read at an edge before the first reset edge after power-up, when no register has a value. Raised
  by every edge with `rst = 0` and by every command in that condition (70_reset_and_hazards.md R234,
  93_implementation_defined.md U5). Safe: the machine stops where the spec gives no value. -/
  | beforeFirstReset
deriving DecidableEq, Repr

/-- Why an instruction has no meaning. -/
inductive Refusal where
  /-- The instruction is not modelled yet. Raised by an arm of `exec` only. Safe. No arm raises it. -/
  | notModelled (mnemonic : String)
deriving DecidableEq, Repr

/-- The machine right after a reset edge (70_reset_and_hazards.md R231): every register at its reset value, and no
frame from the host listed. -/
def State.reset : State :=
  { k := #v[0, 0, 0, 0, 0, 0, 0, 0]
    ctxValid := false
    n1 := 0
    n2 := 0
    rnd := 0
    mode := .encrypt
    fsm := .idle
    blkOut := 0
    rspValid := false
    rspCode := 0
    resetSeen := true
    inputs := [] }

end Sys2Proof.Machine
end

