-- ==== Sys2Proof/Machine/Operands.lean ====
section
/-! DEFINITION. The operand forms of the command port: key lanes and key words (30_encoding.md R72, 41_key_schedule.md
R121), the words of a block (30_encoding.md R73, R77), and the ports of a frame as a bundle (R70). -/

namespace Sys2Proof.Machine

/-- Key byte `j` of `key_in`: bits `8j+7:8j` (30_encoding.md R72). -/
def keyByte (key : KeyBits) (j : Nat) : Byte := key.extractLsb' (8 * j) 8

/-- Four bytes assembled little-endian, `b0` least significant (41_key_schedule.md R121, 20_memory.md R52). -/
def wordOfBytes (b0 b1 b2 b3 : Byte) : Word :=
  b0.setWidth 32 ||| (b1.setWidth 32 <<< 8) ||| (b2.setWidth 32 <<< 16) ||| (b3.setWidth 32 <<< 24)

/-- Word `i` of the key: key bytes `4i` to `4i+3`, little-endian (41_key_schedule.md R121). -/
def keyWord (key : KeyBits) (i : Nat) : Word :=
  wordOfBytes (keyByte key (4 * i)) (keyByte key (4 * i + 1)) (keyByte key (4 * i + 2)) (keyByte key (4 * i + 3))

/-- A block's two 32-bit words. On input `w0` is the document's `n1` and `w1` its `n2` (30_encoding.md R73). -/
structure Block where
  /-- The first word. -/
  w0 : Word
  /-- The second word. -/
  w1 : Word
deriving DecidableEq, Repr

/-- The two words on the block port: the first word is bits 31:0 (30_encoding.md R73, R77). -/
def blockOfBits (b : BlockBits) : Block := { w0 := b.extractLsb' 0 32, w1 := b.extractLsb' 32 32 }

/-- The block port's 64 bits, the second word in bits 63:32 (30_encoding.md R73, R77). -/
def bitsOfBlock (b : Block) : BlockBits := b.w1 ++ b.w0

/-- The command on the ports of a frame (30_encoding.md R71). -/
def portInstr (p : InPorts) : Instr := decodeFields p.cmdOp p.keyLen p.keyIn p.blkIn

/-- The bundle on the ports of a frame (30_encoding.md R70). -/
def portBundle (p : InPorts) : Bundle := bundleOf p.cmdOp p.keyLen p.keyIn p.blkIn

/-- The frame that presents a bundle: `rst = 0`, `cmd_valid = 1` (30_encoding.md R70). -/
def framePresenting (b : Bundle) : InPorts :=
  { rst := false, cmdValid := true, cmdOp := bundleOp b, keyLen := bundleLen b, keyIn := bundleKey b,
    blkIn := bundleBlk b }

/-- The frame that presents the bundle given as a number, the fields of `framePresenting` taken from the number. -/
def framePresentingNat (w : Nat) : InPorts :=
  { rst := false, cmdValid := true, cmdOp := natField w 0 2, keyLen := natField w 2 8, keyIn := natField w 10 256,
    blkIn := natField w 266 64 }

/-- The frame of the current clock cycle; a host with no frame left presents nothing (log entry 1). -/
def State.ports (s : State) : InPorts :=
  match s.inputs with
  | [] => InPorts.idle
  | p :: _ => p

/-- The clock cycle after this one is current. -/
def State.nextCycle (s : State) : State := { s with inputs := s.inputs.tail }

end Sys2Proof.Machine
end

