-- ==== Sys2Proof/Machine/Flags.lean ====
section
/-! DEFINITION. The status of `gost_core`: response codes (60_exceptions.md R201 to R204) and output ports (10_state.md
R32). The core has no arithmetic flags and no condition codes (10_state.md R35). -/

namespace Sys2Proof.Machine

/-- `OK` (60_exceptions.md R201). -/
def rspOk : BitVec 2 := 0b00#2

/-- `INVALID_KEY_LENGTH` (60_exceptions.md R202). -/
def rspInvalidKeyLength : BitVec 2 := 0b01#2

/-- `NO_CONTEXT` (60_exceptions.md R203). -/
def rspNoContext : BitVec 2 := 0b10#2

/-- The reserved code, never written (60_exceptions.md R204). -/
def rspReserved : BitVec 2 := 0b11#2

/-- `cmd_ready`: `(FSM = IDLE) and (rst = 0)` (10_state.md R32). -/
def cmdReady (s : State) (rst : Bool) : Bool := decide (s.fsm = .idle) && !rst

/-- `busy`: `FSM = RUN` (10_state.md R32). -/
def busy (s : State) : Bool := decide (s.fsm = .run)

/-- A transfer happens at this edge: `rst = 0`, `cmd_valid = 1` and `cmd_ready = 1` (70_reset_and_hazards.md R236). -/
def transfers (s : State) (p : InPorts) : Bool := !p.rst && p.cmdValid && cmdReady s p.rst

/-- What the host samples in one clock cycle (10_state.md R32). -/
structure OutPorts where
  /-- `cmd_ready`. -/
  cmdReady : Bool
  /-- `busy`. -/
  busy : Bool
  /-- `ctx_valid`: register `CTX_VALID`. -/
  ctxValid : Bool
  /-- `rsp_valid`: register `RSP_VALID`. -/
  rspValid : Bool
  /-- `rsp_code`: register `RSP_CODE`. -/
  rspCode : BitVec 2
  /-- `blk_out`: register `BLK_OUT`. -/
  blkOut : BlockBits
deriving DecidableEq, Repr

/-- The output ports as functions of the registers and of `rst` (10_state.md R32). -/
def outPorts (s : State) (rst : Bool) : OutPorts :=
  { cmdReady := cmdReady s rst, busy := busy s, ctxValid := s.ctxValid, rspValid := s.rspValid,
    rspCode := s.rspCode, blkOut := s.blkOut }

/-- Sampling the outputs: before the first reset edge they have no value, and reading them is a fault of the host's
run (70_reset_and_hazards.md R234). -/
def sample (s : State) (rst : Bool) : Except Fault OutPorts :=
  if s.resetSeen then .ok (outPorts s rst) else .error .beforeFirstReset

/-- Sampling `cmd_ready` alone: under reset it is 0 whatever the registers hold (70_reset_and_hazards.md R233), so it
has a value even before the first reset edge (DEDUCED, safe, log entry 2). -/
def sampleCmdReady (s : State) (rst : Bool) : Except Fault Bool :=
  if rst then .ok false
  else if s.resetSeen then .ok (cmdReady s rst)
  else .error .beforeFirstReset

end Sys2Proof.Machine
end

