-- ==== Sys2Proof/Machine/TableRom.lean ====
section
/-! DEFINITION. The S-box ROM and the lookup-table generator (spec/40_table_rom.md R100 to R110): constant functions
of `SBOX`, no state, no failure. -/

namespace Sys2Proof.Machine

/-- Entry `n` of one S-box (40_table_rom.md R101). -/
def rowAt (row : SBoxRow) (n : Nibble) : Nibble := row[n.toNat]'(n.isLt)

/-- `TableGen`, entry `i` of the table of the pair `(kA, kB)`: `(kA[i >> 4] << 4) | kB[i & 15]` (R104). -/
def tableGen (kA kB : SBoxRow) (i : Byte) : Byte :=
  let p1 : Nibble := (i >>> 4).setWidth 4
  let p2 : Nibble := (i &&& 15#8).setWidth 4
  ((rowAt kA p1).setWidth 8 <<< 4) ||| (rowAt kB p2).setWidth 8

/-- `T_HI`, from `(SBOX[8], SBOX[7])` (R103). -/
def tHi (sb : SBox) (i : Byte) : Byte := tableGen sb[7] sb[6] i

/-- `T_MID`, from `(SBOX[6], SBOX[5])` (R103). -/
def tMid (sb : SBox) (i : Byte) : Byte := tableGen sb[5] sb[4] i

/-- `T_LOW`, from `(SBOX[4], SBOX[3])` (R103). -/
def tLow (sb : SBox) (i : Byte) : Byte := tableGen sb[3] sb[2] i

/-- `T_LSB`, from `(SBOX[2], SBOX[1])` (R103). -/
def tLsb (sb : SBox) (i : Byte) : Byte := tableGen sb[1] sb[0] i

/-- A whole table as its 256 entries, entry 0 first (R104). -/
def tableBytes (t : Byte → Byte) : List Byte := (List.range 256).map (fun i => t (BitVec.ofNat 8 i))

/-- Configuring the core with S-box values: refused unless every row is a permutation (R107; 93_implementation_defined.md
U2). -/
def admitSbox (sb : SBox) : Option SBoxConfig := if h : sb.wf = true then some { sbox := sb, wf := h } else none

end Sys2Proof.Machine
end

