-- ==== Sys2Proof/Machine/RoundFunction.lean ====
section
/-! DEFINITION. The round function `F` (spec/42_round_function.md R140 to R146): four table lookups and a fixed left
rotation by 11. -/

namespace Sys2Proof.Machine

/-- `rotl32(v, n) = (v << n) | (v >> (32 - n))` for `0 < n < 32` (00_scope.md R12). -/
def rotl32 (v : Word) (n : Nat) : Word := (v <<< n) ||| (v >>> (32 - n))

/-- Byte extraction, substitution and recombination of `F` (42_round_function.md R141 to R143). -/
def substitute (sb : SBox) (x : Word) : Word :=
  let b3 : Byte := x.extractLsb' 24 8
  let b2 : Byte := x.extractLsb' 16 8
  let b1 : Byte := x.extractLsb' 8 8
  let b0 : Byte := x.extractLsb' 0 8
  ((tHi sb b3).setWidth 32 <<< 24) ||| ((tMid sb b2).setWidth 32 <<< 16) ||| ((tLow sb b1).setWidth 32 <<< 8)
    ||| (tLsb sb b0).setWidth 32

/-- `F(x)` (42_round_function.md R145). -/
def roundF (sb : SBox) (x : Word) : Word := rotl32 (substitute sb x) Config.rotation

end Sys2Proof.Machine
end

