-- ==== Sys2Proof/Machine/Ops.lean ====
section
/-! DEFINITION. The named operations every edge is made of: the response (60_exceptions.md R200), loading and clearing
the context (41_key_schedule.md R123, R124), starting a transform (43_block_transform.md R170, R171), the round engine
(R160 to R168), the RUN and completion edges (R172, R173), the reset edge (70_reset_and_hazards.md R231) and the idle
edge (30_encoding.md R79). -/

namespace Sys2Proof.Machine

/-! ### The response: the core's one way to report an error

It has no trap and no trap return (60_exceptions.md R208, R209): an error is a response, after which the core takes the
next command as usual. -/

/-- `respond(code)`: `RSP_VALID <- 1`, `RSP_CODE <- code` (60_exceptions.md R200). -/
def State.respond (s : State) (code : BitVec 2) : State := { s with rspValid := true, rspCode := code }

/-- An edge without a response clears `RSP_VALID` and holds `RSP_CODE` (10_state.md R29, R30). -/
def State.endPulse (s : State) : State := { s with rspValid := false }

/-! ### The context -/

/-- `KeyUnpack`: the eight subkeys of a key, each little-endian (41_key_schedule.md R120, R121). -/
def keyUnpack (key : KeyBits) : Subkeys :=
  #v[keyWord key 0, keyWord key 1, keyWord key 2, keyWord key 3, keyWord key 4, keyWord key 5, keyWord key 6,
    keyWord key 7]

/-- Eight zero subkeys (41_key_schedule.md R124). -/
def zeroSubkeys : Subkeys := #v[0, 0, 0, 0, 0, 0, 0, 0]

/-- Replace the whole context at one edge (20_memory.md R57). -/
def State.setContext (s : State) (k : Subkeys) (valid : Bool) : State := { s with k := k, ctxValid := valid }

/-- The length check: a key is valid if and only if it has exactly 32 bytes (41_key_schedule.md R122). -/
def keyLenValid (len : Byte) : Bool := decide (len.toNat = Config.keyBytes)

/-! ### The round engine -/

/-- `KSEL(m, j)`, the index of the subkey of round `j` (43_block_transform.md R161). -/
def ksel (m : Mode) (j : Nat) : Fin 8 :=
  let forward : Fin 8 := ⟨j % 8, Nat.mod_lt _ (by decide)⟩
  match m with
  | .encrypt => if j < 24 then forward else 7 - forward
  | .decrypt => if j < 8 then forward else 7 - forward

/-- Round `j` on the pair `(N1, N2)`, held as `(w0, w1)`: even rounds update `N2`, odd rounds update `N1`, and the
words are never exchanged (43_block_transform.md R162, 90_conflicts.md C1). -/
def roundStep (sb : SBox) (k : Subkeys) (m : Mode) (j : Nat) (n : Block) : Block :=
  if j % 2 = 0 then { n with w1 := n.w1 ^^^ roundF sb (n.w0 + k[ksel m j]) }
  else { n with w0 := n.w0 ^^^ roundF sb (n.w1 + k[ksel m j]) }

/-- Rounds 0 to `count - 1` (43_block_transform.md R160). -/
def rounds (sb : SBox) (k : Subkeys) (m : Mode) : Nat → Block → Block
  | 0, n => n
  | count + 1, n => roundStep sb k m count (rounds sb k m count n)

/-- The output swap after the last round: first word `n2`, second word `n1` (43_block_transform.md R167). -/
def swapOut (n : Block) : Block := { w0 := n.w1, w1 := n.w0 }

/-- `Encrypt64` on the words `(w0, w1)` (43_block_transform.md R166). -/
def encrypt64 (sb : SBox) (k : Subkeys) (b : Block) : Block := swapOut (rounds sb k .encrypt Config.rounds b)

/-- `Decrypt64` on the words `(w0, w1)` (43_block_transform.md R168). -/
def decrypt64 (sb : SBox) (k : Subkeys) (b : Block) : Block := swapOut (rounds sb k .decrypt Config.rounds b)

/-! ### Starting a transform -/

/-- The registers a started transform loads: `N1`, `N2`, `MODE`, `RND`, `FSM` (43_block_transform.md R170). -/
def State.loadTransform (s : State) (m : Mode) (b : Block) : State :=
  { s with n1 := b.w0, n2 := b.w1, mode := m, rnd := 0, fsm := .run }

/-- The accept edge of a transform in mode `m`: with a context it loads the block and runs; without one it answers
`NO_CONTEXT` and writes nothing else (43_block_transform.md R170, R171; 60_exceptions.md R203). -/
def State.startTransform (s : State) (m : Mode) (blk : BlockBits) : State :=
  if s.ctxValid then (s.loadTransform m (blockOfBits blk)).endPulse else s.respond rspNoContext

/-! ### The edges -/

/-- The working pair `(N1, N2)`. -/
def State.work (s : State) : Block := { w0 := s.n1, w1 := s.n2 }

/-- Round `RND` on the working registers (43_block_transform.md R162). -/
def State.runRound (sb : SBox) (s : State) : State :=
  let n := roundStep sb s.k s.mode s.rnd.toNat s.work
  { s with n1 := n.w0, n2 := n.w1 }

/-- The completion edge's other writes, after round 31: `BLK_OUT` gets the swapped pair, the response is `OK`, the
core is IDLE with `RND` 0 (43_block_transform.md R173). -/
def State.complete (s : State) : State :=
  { s.respond rspOk with blkOut := bitsOfBlock (swapOut s.work), fsm := .idle, rnd := 0 }

/-- The next round's index (43_block_transform.md R172). -/
def State.nextRound (s : State) : State := { s with rnd := s.rnd + 1#5 }

/-- A RUN edge: round `RND`, then either the next `RND` (R172) or, after round 31, completion (R173). -/
def State.runEdge (sb : SBox) (s : State) : State :=
  if s.rnd = 31#5 then (s.runRound sb).complete
  else (s.runRound sb).endPulse.nextRound

/-- The idle edge: `RSP_VALID <- 0`, every other register unchanged (30_encoding.md R79). -/
def State.idleEdge (s : State) : State := s.endPulse

/-- The reset edge: every register takes its reset value, whatever it held (70_reset_and_hazards.md R231); from it on
the registers have values. The host's later frames are not the core's to change. -/
def State.resetEdge (s : State) : State := { State.reset with inputs := s.inputs }

/-- Power-up: any register contents at all, and no reset edge seen yet (70_reset_and_hazards.md R234). -/
def State.powerUp (s : State) : State := { s with resetSeen := false }

/-- The edge at which the host presents a command with `rst = 0` (30_encoding.md R79): in IDLE it is the command's
accept edge; in RUN the round is done and the command is neither taken nor lost (70_reset_and_hazards.md R238); before
the first reset no register can be read (R234). Every meaning is this edge with the command's own accept effect. -/
def commandEdge (accept : State → State) (s : State) : Host.Outcome State Fault Refusal :=
  if s.resetSeen then
    match s.fsm with
    | .idle => .next (accept s)
    | .run => .next (s.runEdge Config.sbox)
  else .fault .beforeFirstReset

end Sys2Proof.Machine
end

