-- ==== Sys2Proof/Machine/BlockTransform.lean ====
section
/-! DEFINITION. The block-transform family (spec/43_block_transform.md): the commands `NOP`, `ENCRYPT` and `DECRYPT`. -/

namespace Sys2Proof.Machine

/-- The accept edge of `NOP`: `RSP_VALID <- 0`, every other register unchanged, no response (R174). -/
def acceptNop (s : State) : State := s.endPulse

/-- `NOP` (R174). -/
def execNop (s : State) : Host.Outcome State Fault Refusal := commandEdge acceptNop s

/-- The accept edge of `ENCRYPT`: a transform with `MODE <- 0` (R170). -/
def acceptEncrypt (blk : BlockBits) (s : State) : State := s.startTransform .encrypt blk

/-- `ENCRYPT` (R170). -/
def execEncrypt (blk : BlockBits) (s : State) : Host.Outcome State Fault Refusal := commandEdge (acceptEncrypt blk) s

/-- The accept edge of `DECRYPT`: a transform with `MODE <- 1` (R171). -/
def acceptDecrypt (blk : BlockBits) (s : State) : State := s.startTransform .decrypt blk

/-- `DECRYPT` (R171). -/
def execDecrypt (blk : BlockBits) (s : State) : Host.Outcome State Fault Refusal := commandEdge (acceptDecrypt blk) s

end Sys2Proof.Machine
end

