-- ==== Sys2Proof/Machine/KeySchedule.lean ====
section
/-! DEFINITION. The key-schedule family (spec/41_key_schedule.md): the command `CONSTRUCT`. -/

namespace Sys2Proof.Machine

/-- The accept edge of `CONSTRUCT`: a 32-byte key replaces the context and answers `OK` (R123); any other length
destroys the context, does not read the key and answers `INVALID_KEY_LENGTH` (R124). -/
def acceptConstruct (len : Byte) (key : KeyBits) (s : State) : State :=
  if keyLenValid len then (s.setContext (keyUnpack key) true).respond rspOk
  else (s.setContext zeroSubkeys false).respond rspInvalidKeyLength

/-- `CONSTRUCT` (R123 to R125). -/
def execConstruct (len : Byte) (key : KeyBits) (s : State) : Host.Outcome State Fault Refusal :=
  commandEdge (acceptConstruct len key) s

/-- The transaction-level `Construct(key)` on a key of any length: the subkeys, or none for `InvalidKeyLength`
(R126). -/
def constructKey (key : List Byte) : Option Subkeys :=
  if key.length = Config.keyBytes then some (keyUnpack (BitVec.ofNat 256 (bytesToNat key))) else none

end Sys2Proof.Machine
end

