-- ==== Sys2Proof/Machine/Dispatch.lean ====
section
/-! DEFINITION. One arm per command: the edge at which the host presents it with `rst = 0` (30_encoding.md R71, R79). -/

namespace Sys2Proof.Machine

def exec (i : Instr) (s : State) : Host.Outcome State Fault Refusal :=
  match i with
  | .nop => Sys2Proof.Machine.execNop s
  | .construct len key => Sys2Proof.Machine.execConstruct len key s
  | .encrypt blk => Sys2Proof.Machine.execEncrypt blk s
  | .decrypt blk => Sys2Proof.Machine.execDecrypt blk s

end Sys2Proof.Machine
end

