-- ==== Sys2Proof/Machine/Edge.lean ====
section
/-! DEFINITION. One rising clock edge (30_encoding.md R79): which case applies, for any admitted `SBOX`. -/

namespace Sys2Proof.Machine

/-- The edge with ports `p`: the first case of 30_encoding.md R79 that applies. Reset first, then the running
transform, then a presented command, else the idle edge (60_exceptions.md R207). Before the first reset edge nothing
but reset has a meaning (70_reset_and_hazards.md R234). -/
def edge (cfg : SBoxConfig) (p : InPorts) (s : State) : Host.Outcome State Fault Refusal :=
  if p.rst then .next s.resetEdge
  else if s.resetSeen then
    match s.fsm with
    | .run => .next (s.runEdge cfg.sbox)
    | .idle => if p.cmdValid then exec (portInstr p) s else .next s.idleEdge
  else .fault .beforeFirstReset

/-- One step of the core with configuration `cfg`: the edge at the end of the current clock cycle. -/
def stepWith (cfg : SBoxConfig) (s : State) : Host.Outcome State Fault Refusal := edge cfg s.ports s.nextCycle

/-- The state in which the very next step accepts the command of a frame: the current frame is that one, the registers
have values and the core is IDLE (log entry 7). -/
def State.presenting (s : State) (p : InPorts) : State :=
  { s with inputs := p :: s.inputs.tail, fsm := .idle, rnd := 0, resetSeen := true }

end Sys2Proof.Machine
end

