-- ==== Sys2Proof/Machine/Step.lean ====
section
/-! DEFINITION. One step of the machine is one rising edge of `clk` (70_reset_and_hazards.md R230). -/

namespace Sys2Proof.Machine

/-- One rising edge of `clk`, of the configured core. -/
def step (s : State) : Host.Outcome State Fault Refusal := stepWith Config.sboxConfig s

/-- `s` with the bundle whose bits below `nbits` are those of `w` on the command port, so that the next step accepts it
(log entry 7). -/
def State.withFetchWord (s : State) (nbits w : Nat) : State :=
  s.presenting (framePresentingNat (lowBits nbits w))

end Sys2Proof.Machine
end

