-- ==== Sys2Proof/Machine/HostScript.lean ====
section
/-! DEFINITION. The host's side of the command port: the host adapter (00_scope.md R8, R9), script lines and their
text (30_encoding.md R80), pseudo-instructions (R81), the driver that presents a script's commands, and the end of a run
(70_reset_and_hazards.md R247). Nothing here is part of the core (92_eei_decisions.md D27). -/

namespace Sys2Proof.Machine

/-! ### The host adapter -/

/-- A software key length on `key_len`: lengths of 256 or more saturate to 255 (00_scope.md R8). -/
def hostKeyLen (n : Nat) : Byte := if n < 256 then BitVec.ofNat 8 n else 255#8

/-- Why a program is refused before it runs: a line would break a duty of the host contract (70_reset_and_hazards.md
R246), a line is outside the grammar (30_encoding.md R80), or the configuration is none (40_table_rom.md R107). Nothing
of a refused program is presented to the core. -/
inductive HostError where
  /-- An S-box row that is not a permutation (40_table_rom.md R107; 93_implementation_defined.md U2). -/
  | sboxRow
  /-- A `len` above 255, which `key_len` cannot carry (30_encoding.md R80). -/
  | lengthRange
  /-- A key that is not 32 bytes: it does not fill the key lanes, and `KEY` would state a false length (30_encoding.md
  R80, R81; 70_reset_and_hazards.md R246). -/
  | keyBytes
  /-- A block buffer that is not exactly 8 bytes (20_memory.md R55; 70_reset_and_hazards.md R246). -/
  | blockBytes
  /-- A byte order that does not place each of the eight bytes once (00_scope.md R9). -/
  | byteOrder
  /-- An `EXPECT` of the reserved code, which the grammar lacks (30_encoding.md R80). -/
  | reservedCode
deriving DecidableEq, Repr

/-- The 64 block bits of a buffer of exactly 8 bytes under a byte order; any other buffer is refused (00_scope.md R9;
20_memory.md R55; 70_reset_and_hazards.md R246). -/
def blockBytesToBits (order : BlockByteOrder) (bytes : List Byte) : Except HostError BlockBits :=
  if order.wf then
    if h : bytes.length = 8 then
      let lane (j : Fin 8) : Byte := bytes[(order[j]).val]'(by have := (order[j]).isLt; omega)
      .ok (lane 7 ++ lane 6 ++ lane 5 ++ lane 4 ++ lane 3 ++ lane 2 ++ lane 1 ++ lane 0)
    else .error .blockBytes
  else .error .byteOrder

/-- The `key_in` bits of the key bytes, byte 0 first (30_encoding.md R72, R80). -/
def keyBytesToBits (bytes : List Byte) : KeyBits := BitVec.ofNat 256 (bytesToNat bytes)

/-! ### Script lines -/

/-- One line of a host script (30_encoding.md R80) or a pseudo-instruction (R81). -/
inductive ScriptLine where
  /-- `NOP`. -/
  | nop
  /-- `CONSTRUCT len= key=`, the key bytes in order. -/
  | construct (len : Nat) (key : List Byte)
  /-- `ENCRYPT n1= n2=`. -/
  | encrypt (n1 n2 : Word)
  /-- `DECRYPT n1= n2=`. -/
  | decrypt (n1 n2 : Word)
  /-- `WAIT`: the host idles until `rsp_valid = 1`; no transfer. -/
  | wait
  /-- `EXPECT code= [w0=] [w1=]`: checks the response that `WAIT` received. -/
  | expect (code : BitVec 2) (w0 w1 : Option Word)
  /-- `KEY key=`. -/
  | key (key : List Byte)
  /-- `ENCB bytes=`. -/
  | encb (bytes : List Byte)
  /-- `DECB bytes=`. -/
  | decb (bytes : List Byte)
deriving DecidableEq, Repr

/-- A script line is well formed: `len` is 0 to 255, a key has 32 bytes, a block buffer exactly 8 (30_encoding.md R80,
R81; 20_memory.md R55), and `code` is one of the three codes the core produces. -/
def ScriptLine.wf : ScriptLine → Bool
  | .nop => true
  | .construct len bytes => decide (len ≤ 255) && decide (bytes.length = 32)
  | .encrypt _ _ => true
  | .decrypt _ _ => true
  | .wait => true
  | .expect code _ _ => decide (code ≠ rspReserved)
  | .key bytes => decide (bytes.length = 32)
  | .encb bytes => decide (bytes.length = 8)
  | .decb bytes => decide (bytes.length = 8)

/-- A pseudo-instruction on a block buffer: the transform of its two words, then `WAIT` (30_encoding.md R81). -/
def expandBlockLine (line : Word → Word → ScriptLine) (order : BlockByteOrder) (bytes : List Byte) :
    Except HostError (List ScriptLine) :=
  (blockBytesToBits order bytes).map fun bits => [line (blockOfBits bits).w0 (blockOfBits bits).w1, .wait]

/-- The expansion of the pseudo-instructions (30_encoding.md R81); every other line stands as it is. A line that breaks
the grammar (R80) or a duty of the host (70_reset_and_hazards.md R246) is refused by name. -/
def expandLine (order : BlockByteOrder) : ScriptLine → Except HostError (List ScriptLine)
  | .key key => if key.length = Config.keyBytes then .ok [.construct 32 key] else .error .keyBytes
  | .encb bytes => expandBlockLine .encrypt order bytes
  | .decb bytes => expandBlockLine .decrypt order bytes
  | .nop => .ok [.nop]
  | .construct len key =>
    if 255 < len then .error .lengthRange
    else if key.length = Config.keyBytes then .ok [.construct len key]
    else .error .keyBytes
  | .encrypt n1 n2 => .ok [.encrypt n1 n2]
  | .decrypt n1 n2 => .ok [.decrypt n1 n2]
  | .wait => .ok [.wait]
  | .expect code w0 w1 => if code = rspReserved then .error .reservedCode else .ok [.expect code w0 w1]

/-- What the host does: put a command on the port, wait for a response, or check the response it waited for. -/
inductive HostAction where
  /-- Present this command for one cycle in which `cmd_ready = 1`. -/
  | command (i : Instr)
  /-- `WAIT`. -/
  | wait
  /-- `EXPECT`. -/
  | expect (code : BitVec 2) (w0 w1 : Option Word)
deriving DecidableEq, Repr

/-- The action of a line without pseudo-instructions; none for a pseudo-instruction, which `expandLine` removes
(30_encoding.md R80). -/
def lineAction : ScriptLine → Option HostAction
  | .nop => some (.command .nop)
  | .construct len key => some (.command (.construct (hostKeyLen len) (keyBytesToBits key)))
  | .encrypt n1 n2 => some (.command (.encrypt (bitsOfBlock ⟨n1, n2⟩)))
  | .decrypt n1 n2 => some (.command (.decrypt (bitsOfBlock ⟨n1, n2⟩)))
  | .wait => some .wait
  | .expect code w0 w1 => some (.expect code w0 w1)
  | .key _ => none
  | .encb _ => none
  | .decb _ => none

/-- A script as host actions, its pseudo-instructions expanded under a byte order (30_encoding.md R80, R81); a script
with a refused line is refused whole (70_reset_and_hazards.md R246). -/
def scriptActions (order : BlockByteOrder) : List ScriptLine → Except HostError (List HostAction)
  | [] => .ok []
  | line :: rest =>
    match expandLine order line with
    | .error e => .error e
    | .ok lines => (scriptActions order rest).map (lines.filterMap lineAction ++ ·)

/-! ### Script text -/

/-- The part of a line before its comment, in lower case: mnemonics and keywords are case-insensitive (30_encoding.md
R80). -/
def plainText (line : List Char) : List Char := (line.takeWhile (· ≠ '#')).map Char.toLower

/-- The words of a line; `word` collects the current word in reverse. -/
def splitWords (word : List Char) : List Char → List (List Char)
  | [] => if word = [] then [] else [word.reverse]
  | c :: rest =>
    if c = ' ' ∨ c = '\t' ∨ c = '\r' ∨ c = '\n' then
      if word = [] then splitWords [] rest else word.reverse :: splitWords [] rest
    else splitWords (c :: word) rest

/-- The value of a digit in lower-case hexadecimal. -/
def hexDigit (c : Char) : Option Nat :=
  if 48 ≤ c.toNat ∧ c.toNat ≤ 57 then some (c.toNat - 48)
  else if 97 ≤ c.toNat ∧ c.toNat ≤ 102 then some (c.toNat - 87)
  else none

/-- The number written by digits of a base, most significant first. -/
def digitsNat (base : Nat) : Nat → List Char → Option Nat
  | acc, [] => some acc
  | acc, c :: rest =>
    match hexDigit c with
    | some d => if d < base then digitsNat base (base * acc + d) rest else none
    | none => none

/-- The bytes written by pairs of hexadecimal digits, byte 0 first. -/
def hexBytes : List Char → Option (List Byte)
  | [] => some []
  | [_] => none
  | a :: b :: rest =>
    match hexDigit a, hexDigit b, hexBytes rest with
    | some x, some y, some bytes => some (BitVec.ofNat 8 (16 * x + y) :: bytes)
    | _, _, _ => none

/-- The value of a word `<name>=<value>`, if the word begins with that name. -/
def valueOf (name : List Char) (word : List Char) : Option (List Char) :=
  if name.isPrefixOf word then some (word.drop name.length) else none

/-- An 8-digit hexadecimal word after a name (30_encoding.md R80). -/
def hexWord (name : List Char) (word : List Char) : Option Word :=
  match valueOf name word with
  | some ds => if ds.length = 8 then (digitsNat 16 0 ds).map (BitVec.ofNat 32) else none
  | none => none

/-- The bytes after a name, if there are `n` of them. -/
def hexByteString (n : Nat) (name : List Char) (word : List Char) : Option (List Byte) :=
  match valueOf name word with
  | some ds => if ds.length = 2 * n then hexBytes ds else none
  | none => none

/-- A decimal number 0 to 255 after a name. -/
def decimalByte (name : List Char) (word : List Char) : Option Nat :=
  match valueOf name word with
  | some ds =>
    if ds = [] then none
    else (digitsNat 10 0 ds).bind fun n => if n ≤ 255 then some n else none
  | none => none

/-- The response code after `code=` (30_encoding.md R80). -/
def codeWord (word : List Char) : Option (BitVec 2) :=
  if word = "code=ok".toList then some rspOk
  else if word = "code=invalid_key_length".toList then some rspInvalidKeyLength
  else if word = "code=no_context".toList then some rspNoContext
  else none

/-- The line written by the words of its text, in lower case; none if they are no line of the grammar (30_encoding.md
R80, R81). -/
def lineOfWords : List (List Char) → Option ScriptLine
  | [m] =>
    if m = "nop".toList then some .nop
    else if m = "wait".toList then some .wait
    else none
  | [m, a] =>
    if m = "key".toList then (hexByteString 32 "key=".toList a).map .key
    else if m = "encb".toList then (hexByteString 8 "bytes=".toList a).map .encb
    else if m = "decb".toList then (hexByteString 8 "bytes=".toList a).map .decb
    else if m = "expect".toList then (codeWord a).map fun c => .expect c none none
    else none
  | [m, a, b] =>
    if m = "construct".toList then
      match decimalByte "len=".toList a, hexByteString 32 "key=".toList b with
      | some len, some key => some (.construct len key)
      | _, _ => none
    else if m = "encrypt".toList then
      match hexWord "n1=".toList a, hexWord "n2=".toList b with
      | some n1, some n2 => some (.encrypt n1 n2)
      | _, _ => none
    else if m = "decrypt".toList then
      match hexWord "n1=".toList a, hexWord "n2=".toList b with
      | some n1, some n2 => some (.decrypt n1 n2)
      | _, _ => none
    else if m = "expect".toList then
      match codeWord a, hexWord "w0=".toList b, hexWord "w1=".toList b with
      | some c, some w0, _ => some (.expect c (some w0) none)
      | some c, none, some w1 => some (.expect c none (some w1))
      | _, _, _ => none
    else none
  | [m, a, b, d] =>
    if m = "expect".toList then
      match codeWord a, hexWord "w0=".toList b, hexWord "w1=".toList d with
      | some c, some w0, some w1 => some (.expect c (some w0) (some w1))
      | _, _, _ => none
    else none
  | _ => none

/-- One line of script text: nothing for a blank or comment line, the line otherwise; the outer none is a line the
grammar does not have (30_encoding.md R80). -/
def parseLine (line : List Char) : Option (Option ScriptLine) :=
  match splitWords [] (plainText line) with
  | [] => some none
  | ws => (lineOfWords ws).map some

/-! ### The driver -/

/-- The host between two clock cycles. -/
structure HostState where
  /-- What it has still to do. -/
  todo : List HostAction
  /-- How many responses it is owed: accepted commands other than `NOP` whose pulse has not shown (60_exceptions.md
  R206). -/
  owed : Nat
  /-- The outputs of the cycle in which the last `WAIT` ended. -/
  last : Option OutPorts
  /-- Every `EXPECT` so far held. -/
  passed : Bool
deriving DecidableEq, Repr

/-- The host at the start of a script. -/
def HostState.start (todo : List HostAction) : HostState := { todo := todo, owed := 0, last := none, passed := true }

/-- An `EXPECT` against the outputs that `WAIT` received: `w0` is `blk_out[31:0]`, `w1` is `blk_out[63:32]`
(30_encoding.md R80). -/
def expectHolds (code : BitVec 2) (w0 w1 : Option Word) : Option OutPorts → Bool
  | none => false
  | some o =>
    decide (o.rspCode = code)
      && (match w0 with | none => true | some w => decide (w = (blockOfBits o.blkOut).w0))
      && (match w1 with | none => true | some w => decide (w = (blockOfBits o.blkOut).w1))

/-- A command owes a response unless it is `NOP` (60_exceptions.md R206). -/
def owesResponse : Instr → Bool
  | .nop => false
  | .construct _ _ => true
  | .encrypt _ => true
  | .decrypt _ => true

/-- One clock cycle of the host: it does the actions of its script that this cycle's outputs allow, and drives the
ports. A command is presented for one cycle in which `cmd_ready = 1`; otherwise nothing is (DESIGN CHOICE, log entry
12). -/
def driveActions (o : OutPorts) (h : HostState) : List HostAction → HostState × InPorts
  | [] => ({ h with todo := [] }, InPorts.idle)
  | .command i :: rest =>
    if o.cmdReady then
      ({ h with todo := rest, owed := if owesResponse i then h.owed + 1 else h.owed }, framePresenting (encode i))
    else ({ h with todo := .command i :: rest }, InPorts.idle)
  | .wait :: rest =>
    if o.rspValid then driveActions o { h with last := some o } rest
    else ({ h with todo := .wait :: rest }, InPorts.idle)
  | .expect code w0 w1 :: rest =>
    driveActions o { h with passed := h.passed && expectHolds code w0 w1 h.last } rest

/-- The host sees a response pulse: one response less is owed. -/
def HostState.seePulse (h : HostState) (o : OutPorts) : HostState :=
  { h with owed := if o.rspValid then h.owed - 1 else h.owed }

/-- One clock cycle of the host. -/
def HostState.cycle (h : HostState) (o : OutPorts) : HostState × InPorts :=
  let seen := h.seePulse o
  driveActions o seen seen.todo

/-- No command is left among the actions. -/
def noCommandLeft : List HostAction → Bool
  | [] => true
  | .command _ :: _ => false
  | .wait :: rest => noCommandLeft rest
  | .expect _ _ _ :: rest => noCommandLeft rest

/-- The end of a run, at the cycle with this host and these outputs: every command accepted, every response owed has
shown its pulse, `FSM = IDLE`, which is `busy = 0` (70_reset_and_hazards.md R247; 10_state.md R32). -/
def runEnded (h : HostState) (o : OutPorts) : Bool :=
  noCommandLeft h.todo && decide ((h.seePulse o).owed = 0) && !o.busy

/-- Host and core run together for at most `fuel` clock cycles, stopping at the end of the run. In every cycle the host
first samples the outputs, which faults before the first reset edge (70_reset_and_hazards.md R234). The answer is the
state at the last cycle, with the host after it has looked at that cycle's outputs. -/
def runScript (cfg : SBoxConfig) : Nat → HostState → State → Host.Outcome (HostState × State) Fault Refusal
  | 0, h, s => .next (h, s)
  | fuel + 1, h, s =>
    match sample s false with
    | .error r => .fault r
    | .ok o =>
      let d := h.cycle o
      if runEnded h o then .next (d.1, s)
      else
        match edge cfg d.2 s with
        | .next s' => runScript cfg fuel d.1 s'
        | .fault r => .fault r
        | .refused r => .refused r

/-- The ports of a cycle in which the host resets the core. -/
def InPorts.resetting : InPorts := { InPorts.idle with rst := true }

/-- A whole program on a core with these S-box values: values that are no configuration are refused (40_table_rom.md
R107), the script is checked and expanded, then the host applies reset before any other use, at edge 0, and drives the
script from cycle 1 on (70_reset_and_hazards.md R235, R246; 95_test_vectors.md section 7). -/
def runProgram (sb : SBox) (order : BlockByteOrder) (script : List ScriptLine) (fuel : Nat) (s : State) :
    Except HostError (Host.Outcome (HostState × State) Fault Refusal) :=
  match admitSbox sb with
  | none => .error .sboxRow
  | some cfg =>
    match scriptActions order script with
    | .error e => .error e
    | .ok todo =>
      match edge cfg InPorts.resetting s with
      | .next s' => .ok (runScript cfg fuel (HostState.start todo) s')
      | .fault r => .ok (.fault r)
      | .refused r => .ok (.refused r)

end Sys2Proof.Machine
end

