-- ==== Sys2Proof/Machine/Pins.lean ====
section
/-! DEFINITION. The boundary of the input pins: the model takes every input as a defined bit vector and refuses
undefined levels (70_reset_and_hazards.md R244; 93_implementation_defined.md U6). -/

namespace Sys2Proof.Machine

/-- The level on one wire. -/
inductive Level where
  /-- A defined 0. -/
  | low
  /-- A defined 1. -/
  | high
  /-- Undefined or metastable. -/
  | undefined
deriving DecidableEq, Repr

/-- The wires of the input ports in one clock cycle (10_state.md R31), bit 0 of each port first. -/
structure Pins where
  /-- `rst`. -/
  rst : Level
  /-- `cmd_valid`. -/
  cmdValid : Level
  /-- `cmd_op`, 2 wires. -/
  cmdOp : Vector Level 2
  /-- `key_len`, 8 wires. -/
  keyLen : Vector Level 8
  /-- `key_in`, 256 wires. -/
  keyIn : Vector Level 256
  /-- `blk_in`, 64 wires. -/
  blkIn : Vector Level 64
deriving DecidableEq, Repr

/-- Why a cycle's wires are no input of the core (R244). -/
inductive PinError where
  /-- `rst`, `cmd_valid` or `cmd_op` is not at a defined level; all three must be, in every cycle. -/
  | undefinedControl
  /-- A bit of `key_len`, `key_in` or `blk_in` is not at a defined level while `cmd_valid = 1`. -/
  | undefinedOperand
deriving DecidableEq, Repr

/-- The bit a wire carries, if its level is defined. -/
def levelBit : Level → Option Bool
  | .low => some false
  | .high => some true
  | .undefined => none

/-- The number on a bundle of wires, bit 0 first, if every wire is at a defined level. -/
def levelsNat : List Level → Option Nat
  | [] => some 0
  | l :: rest => (levelBit l).bind fun b => (levelsNat rest).map fun n => b.toNat + 2 * n

/-- The bit vector on a port of `n` wires, if every one is at a defined level. -/
def levelsBits (n : Nat) (ls : Vector Level n) : Option (BitVec n) := (levelsNat ls.toList).map (BitVec.ofNat n)

/-- The frame on the wires, or why there is none. The operand ports must be defined only while `cmd_valid = 1` (R244);
otherwise nothing reads them and they stand as 0. -/
def samplePins (p : Pins) : Except PinError InPorts :=
  match levelBit p.rst, levelBit p.cmdValid, levelsBits 2 p.cmdOp with
  | some rst, some valid, some op =>
    if valid then
      match levelsBits 8 p.keyLen, levelsBits 256 p.keyIn, levelsBits 64 p.blkIn with
      | some len, some key, some blk =>
        .ok { rst := rst, cmdValid := true, cmdOp := op, keyLen := len, keyIn := key, blkIn := blk }
      | _, _, _ => .error .undefinedOperand
    else .ok { rst := rst, cmdValid := false, cmdOp := op, keyLen := 0, keyIn := 0, blkIn := 0 }
  | _, _, _ => .error .undefinedControl

end Sys2Proof.Machine
end

