-- ==== Sys2Proof/Safety.lean ====
section
/-! DEFINITION. What counts as a safe run: the core has been reset before any other use (70_reset_and_hazards.md R234,
R235), and the register invariants of every reachable state (10_state.md R33; 60_exceptions.md R204). -/

namespace Sys2Proof.Machine

/-- The platform has applied reset (R234): from here no edge faults. -/
def State.safe (s : State) : Bool := s.resetSeen

/-- The invariants of 10_state.md R33. -/
structure State.Inv (s : State) : Prop where
  /-- `FSM = IDLE` implies `RND = 0`. -/
  idle_rnd : s.fsm = .idle → s.rnd = 0
  /-- `FSM = RUN` implies `CTX_VALID = 1`. -/
  run_ctx : s.fsm = .run → s.ctxValid = true
  /-- `CTX_VALID = 0` implies `K[i] = 0` for all `i`. -/
  noctx_k : s.ctxValid = false → ∀ i : Fin 8, s.k[i] = 0

/-- The invariant of 60_exceptions.md R204: `RSP_CODE` is not the reserved code. -/
def State.CodeLegal (s : State) : Prop := s.rspCode ≠ rspReserved

/-! ### Words the statements use -/

/-- `k` edges in a row from a state, stopping at the first fault. -/
def runSteps (n : Nat) (s : State) : Host.Outcome State Fault Refusal := Host.Core.run Sys2Proof.core n s

/-- The core can accept a command: it has been reset and is IDLE. -/
abbrev State.ready (s : State) : Prop := s.resetSeen = true ∧ s.fsm = .idle

/-- The command the core accepts at this edge, if the edge is an accept edge (70_reset_and_hazards.md R236). -/
def acceptedCommand (s : State) : Option Instr :=
  if s.resetSeen && transfers s s.ports then some (portInstr s.ports) else none

/-- The host does not reset in the next `n` clock cycles. -/
abbrev State.quietFor (n : Nat) (s : State) : Prop := ∀ p ∈ s.inputs.take n, p.rst = false

/-- The kind of a command, without its key, its block and the direction of a transform. -/
inductive CommandShape where
  /-- `NOP`. -/
  | nop
  /-- `CONSTRUCT` with a valid length. -/
  | constructValid
  /-- `CONSTRUCT` with an invalid length. -/
  | constructInvalid
  /-- `ENCRYPT` or `DECRYPT`. -/
  | transform
deriving DecidableEq, Repr

/-- The kind of a command. -/
def commandShape : Instr → CommandShape
  | .nop => .nop
  | .construct len _ => if len = 32#8 then .constructValid else .constructInvalid
  | .encrypt _ => .transform
  | .decrypt _ => .transform

/-- What a frame shows without its key bits, its block and the direction of a transform. -/
structure FrameShape where
  /-- `rst`. -/
  rst : Bool
  /-- `cmd_valid`. -/
  cmdValid : Bool
  /-- The kind of the command on the ports. -/
  shape : CommandShape
deriving DecidableEq, Repr

/-- A frame without its data. -/
def frameShape (p : InPorts) : FrameShape :=
  { rst := p.rst, cmdValid := p.cmdValid, shape := commandShape (portInstr p) }

/-- The control part of a state: everything but subkeys, words, results and the direction of a transform, in the
registers and in the host's frames (70_reset_and_hazards.md R243). -/
structure Control where
  /-- `FSM`. -/
  fsm : Fsm
  /-- `RND`. -/
  rnd : BitVec 5
  /-- `CTX_VALID`. -/
  ctxValid : Bool
  /-- `RSP_VALID`. -/
  rspValid : Bool
  /-- `RSP_CODE`. -/
  rspCode : BitVec 2
  /-- A reset edge has been seen. -/
  resetSeen : Bool
  /-- The host's frames without their data. -/
  frames : List FrameShape
deriving DecidableEq, Repr

/-- The control part of a state. -/
def State.control (s : State) : Control :=
  { fsm := s.fsm, rnd := s.rnd, ctxValid := s.ctxValid, rspValid := s.rspValid, rspCode := s.rspCode,
    resetSeen := s.resetSeen, frames := s.inputs.map frameShape }

/-- Two outcomes agree in their control part, or are the same fault. -/
def sameControl : Host.Outcome State Fault Refusal → Host.Outcome State Fault Refusal → Prop
  | .next s, .next t => s.control = t.control
  | .fault a, .fault b => a = b
  | _, _ => False

/-- Two frames agree on every port the edge reads: the control ports, `key_len` and (for the valid length) `key_in` of a
`CONSTRUCT`, and `blk_in` of a transform that has a context (30_encoding.md R75). -/
def agreeOnReadFields (s : State) (p q : InPorts) : Prop :=
  p.rst = q.rst ∧ p.cmdValid = q.cmdValid ∧ p.cmdOp = q.cmdOp ∧
    (p.cmdOp = 0b01#2 → p.keyLen = q.keyLen ∧ (p.keyLen = 32#8 → p.keyIn = q.keyIn)) ∧
    (p.cmdOp = 0b10#2 ∨ p.cmdOp = 0b11#2 → s.ctxValid = true → p.blkIn = q.blkIn)

end Sys2Proof.Machine
end

