-- ==== Sys2Proof/Certificates/Slice0/Obligations.lean ====
section
/-! DEFINITION. The statements for the provers, each from a numbered rule of spec/. -/

open Sys2Proof Sys2Proof.Machine

/-! ### Reset and power-up -/

/-- 70_reset_and_hazards.md R231: the reset edge gives every register its reset value whatever the state and the other
inputs, and a second reset edge changes nothing more. -/
def Obligations.ResetEdgeSetsEveryRegister : Prop :=
  ∀ s : State, s.ports.rst = true →
    ∃ t, step s = .next t ∧ (∀ i : Fin 8, t.k[i] = 0#32) ∧ t.n1 = 0#32 ∧ t.n2 = 0#32 ∧ t.blkOut = 0#64 ∧ t.rnd = 0#5 ∧
      t.mode = .encrypt ∧ t.fsm = .idle ∧ t.ctxValid = false ∧ t.rspValid = false ∧ t.rspCode = 0b00#2 ∧
      (t.ports.rst = true → ∃ u, step t = .next u ∧ u = { t with inputs := u.inputs })

/-- 70_reset_and_hazards.md R233: under reset `cmd_ready` is 0, nothing is transferred, and what the host presents
makes no difference. -/
def Obligations.NoCommandUnderReset : Prop :=
  ∀ (s : State) (p q : InPorts) (rest : List InPorts), p.rst = true → q.rst = true →
    sampleCmdReady s true = .ok false ∧ transfers s p = false ∧
      step { s with inputs := p :: rest } = step { s with inputs := q :: rest }

/-- 70_reset_and_hazards.md section 1: before the first reset edge the outputs cannot be read, but for `cmd_ready` under
reset, and no edge but a reset edge has a next state. That each of these stops is the fault of this name is the model's
choice (DESIGN CHOICE, log entry 2; for `exec` DEDUCED, log entry 5). -/
def Obligations.NothingReadableBeforeFirstReset : Prop :=
  ∀ s : State, s.resetSeen = false →
    (∀ rst, sample s rst = .error .beforeFirstReset) ∧ sampleCmdReady s false = .error .beforeFirstReset ∧
      (∀ i, exec i s = .fault .beforeFirstReset) ∧
      (s.ports.rst = false → step s = .fault .beforeFirstReset) ∧
      (s.ports.rst = true → ∃ t, step s = .next t ∧ t.resetSeen = true)

/-- 60_exceptions.md section 1: once reset, no edge and no command ever faults or is refused. -/
def Obligations.NoFaultOnceReset : Prop :=
  ∀ s : State, s.safe = true →
    (∃ t, step s = .next t ∧ t.safe = true) ∧ ∀ i, ∃ t, exec i s = .next t ∧ t.safe = true

/-- 70_reset_and_hazards.md section 2: from any power-up contents, a reset edge, then `CONSTRUCT` with 32 bytes, then a
transform: the response is OK and the transform runs. -/
def Obligations.BootSequenceStartsTransform : Prop :=
  ∀ (s : State) (key : KeyBits) (i : Instr) (blk : BlockBits) (p : InPorts) (rest : List InPorts),
    p.rst = true → i = .encrypt blk ∨ i = .decrypt blk →
    s.inputs = p :: framePresenting (encode (.construct 32 key)) :: framePresenting (encode i) :: rest →
    ∃ t u, runSteps 2 s.powerUp = .next t ∧ t.rspValid = true ∧ t.rspCode = rspOk ∧ t.ctxValid = true ∧
      runSteps 3 s.powerUp = .next u ∧ u.fsm = .run ∧ u.rnd = 0#5 ∧ u.inputs = rest

/-! ### The edge -/

/-- 30_encoding.md R79: which case an edge takes. -/
def Obligations.EdgeTakesFirstApplicableCase : Prop :=
  ∀ s : State, s.resetSeen = true →
    step s =
      if s.ports.rst = true then .next s.nextCycle.resetEdge
      else if s.fsm = .run then .next (s.nextCycle.runEdge Config.sbox)
      else if s.ports.cmdValid = true then
        if s.ports.cmdOp = 0b00#2 then execNop s.nextCycle
        else if s.ports.cmdOp = 0b01#2 then execConstruct s.ports.keyLen s.ports.keyIn s.nextCycle
        else if s.ports.cmdOp = 0b10#2 then execEncrypt s.ports.blkIn s.nextCycle
        else execDecrypt s.ports.blkIn s.nextCycle
      else .next { s.nextCycle with rspValid := false }

/-- When the bundle on the ports of an accept edge decodes to a command, the step is `exec` of that command on the state
whose next frame is current. -/
def Obligations.StepRunsDecodedCommand : Prop :=
  ∀ (s : State) (p : InPorts) (rest : List InPorts) (w : Nat) (i : Instr),
    s.inputs = p :: rest → s.ready → p.rst = false → p.cmdValid = true → portBundle p = BitVec.ofNat 330 w →
    decodeWord w = .ok i → i.wf = true → step s = exec i { s with inputs := rest }

/-- 70_reset_and_hazards.md R236: a transfer happens at exactly the edges with `rst = 0`, `cmd_valid = 1` and
`cmd_ready = 1`; at any other edge the command and its operands make no difference. -/
def Obligations.TransferExactlyWhenValidAndReady : Prop :=
  ∀ (s : State) (p q : InPorts) (rest : List InPorts), s.resetSeen = true →
    (transfers s p = true ↔ p.rst = false ∧ p.cmdValid = true ∧ sampleCmdReady s p.rst = .ok true) ∧
    (transfers s p = true → step { s with inputs := p :: rest } = exec (portInstr p) { s with inputs := rest }) ∧
    (transfers s p = false → p.rst = q.rst → p.cmdValid = q.cmdValid →
      step { s with inputs := p :: rest } = step { s with inputs := q :: rest })

/-- 30_encoding.md R75: a field that a command does not read has no effect. -/
def Obligations.UnreadFieldsHaveNoEffect : Prop :=
  ∀ (s : State) (p q : InPorts) (rest : List InPorts), agreeOnReadFields s p q →
    step { s with inputs := p :: rest } = step { s with inputs := q :: rest }

/-- In RUN every command, whatever it is, leaves the edge the RUN edge: it is not accepted (`exec` in RUN: log entry
5). -/
def Obligations.CommandsIgnoredWhileRunning : Prop :=
  ∀ (s : State) (i : Instr), s.resetSeen = true → s.fsm = .run →
    ∃ t, exec i s = .next t ∧ t = s.runEdge Config.sbox ∧ t.k = s.k ∧ t.ctxValid = s.ctxValid ∧ t.mode = s.mode ∧
      t.resetSeen = s.resetSeen ∧ t.inputs = s.inputs ∧
      (s.rnd ≠ 31#5 → t.blkOut = s.blkOut ∧ t.rspCode = s.rspCode ∧ t.fsm = .run)

/-- 70_reset_and_hazards.md section 3: a command held on the port through the rest of a transform is accepted at the
first edge after the core is back in IDLE. -/
def Obligations.HeldCommandAcceptedAfterTransform : Prop :=
  ∀ (s : State) (i : Instr) (rest : List InPorts), s.resetSeen = true → s.fsm = .run →
    s.inputs = List.replicate (33 - s.rnd.toNat) (framePresenting (encode i)) ++ rest →
    ∃ t, runSteps (32 - s.rnd.toNat) s = .next t ∧ t.fsm = .idle ∧ t.rspValid = true ∧
      step t = exec i { t with inputs := rest }

/-! ### The commands -/

/-- 43_block_transform.md R174: `NOP` clears `RSP_VALID` and nothing else, as an idle edge does. -/
def Obligations.NopClearsOnlyRspValid : Prop :=
  (∀ len key blk, decodeFields 0b00#2 len key blk = .nop) ∧
  (∀ s : State, s.ready → exec .nop s = .next { s with rspValid := false }) ∧
  (∀ (s : State) (p q : InPorts) (rest : List InPorts), s.ready → p.rst = false → q.rst = false → p.cmdValid = true →
    portInstr p = .nop → q.cmdValid = false →
    step { s with inputs := p :: rest } = step { s with inputs := q :: rest })

/-- 41_key_schedule.md R123: a 32-byte key replaces the context and answers `OK`; transforms accepted from the next edge
on use the new subkeys; in RUN what the host presents makes no difference; and the rule's worked example. -/
def Obligations.ConstructLoadsValidKey : Prop :=
  (∀ len key blk, decodeFields 0b01#2 len key blk = .construct len key) ∧
  (∀ (s : State) (key : KeyBits), s.ready →
    ∃ t, exec (.construct 32#8 key) s = .next t ∧ (∀ i : Fin 8, t.k[i] = key.extractLsb' (32 * i.val) 32) ∧
      t = { s with k := t.k, ctxValid := true, rspValid := true, rspCode := 0b00#2 } ∧
      ∀ blk, (∃ u, exec (.encrypt blk) t = .next u ∧ u.fsm = .run ∧ u.k = t.k) ∧
        (∃ u, exec (.decrypt blk) t = .next u ∧ u.fsm = .run ∧ u.k = t.k)) ∧
  (∀ (s : State) (p q : InPorts) (rest : List InPorts), s.fsm = .run → p.rst = q.rst →
    step { s with inputs := p :: rest } = step { s with inputs := q :: rest }) ∧
  keyUnpack 0x1F1E1D1C1B1A191817161514131211100F0E0D0C0B0A09080706050403020100#256 =
    #v[0x03020100, 0x07060504, 0x0B0A0908, 0x0F0E0D0C, 0x13121110, 0x17161514, 0x1B1A1918, 0x1F1E1D1C]

/-- 41_key_schedule.md R124: any other length clears the context and answers `INVALID_KEY_LENGTH`; the key is not
read; without a context every transform gets `NO_CONTEXT`, and no edge but that of a valid `CONSTRUCT` gives one. -/
def Obligations.ConstructRefusesOtherLengths : Prop :=
  (∀ (s : State) (len : Byte) (key : KeyBits), s.ready → len ≠ 32#8 →
    ∃ t, exec (.construct len key) s = .next t ∧ (∀ i : Fin 8, t.k[i] = 0#32) ∧
      t = { s with k := t.k, ctxValid := false, rspValid := true, rspCode := 0b01#2 } ∧
      ∀ key', exec (.construct len key') s = .next t) ∧
  (∀ (s : State) (blk : BlockBits), s.ready → s.ctxValid = false →
    exec (.encrypt blk) s = .next { s with rspValid := true, rspCode := 0b10#2 } ∧
    exec (.decrypt blk) s = .next { s with rspValid := true, rspCode := 0b10#2 }) ∧
  (∀ s t : State, s.ctxValid = false → (∀ key, acceptedCommand s ≠ some (.construct 32#8 key)) → step s = .next t →
    t.ctxValid = false)

/-- 41_key_schedule.md section 2: the corner cases of `CONSTRUCT`. The state after the zero key differs from the failed
one in `CTX_VALID` and `RSP_CODE`, as vector V6 of 95_test_vectors.md section 6 says. -/
def Obligations.ConstructCornerCases : Prop :=
  (∀ (s : State) (key : KeyBits), s.ready →
    exec (.construct 0#8 key) s = exec (.construct 255#8 key) s ∧
    ∃ t, exec (.construct 255#8 key) s = .next t ∧ t.ctxValid = false ∧ t.rspCode = rspInvalidKeyLength) ∧
  (∀ (s : State) (len : Byte) (key key' : KeyBits), len ≠ 32#8 →
    exec (.construct len key) s = exec (.construct len key') s) ∧
  (∀ s : State, s.ready → ∃ t u, exec (.construct 32#8 0#256) s = .next t ∧ exec (.construct 31#8 0#256) s = .next u ∧
    (∀ i : Fin 8, t.k[i] = 0#32) ∧ t.ctxValid = true ∧
    u = { t with ctxValid := false, rspCode := rspInvalidKeyLength }) ∧
  (∀ (s s' t t' : State) (key : KeyBits), s.ready → s'.ready → exec (.construct 32#8 key) s = .next t →
    exec (.construct 32#8 key) s' = .next t' → t.k = t'.k) ∧
  (∀ (s t : State) (len : Byte) (key : KeyBits), s.ready → exec (.construct len key) s = .next t →
    t.ready ∧ t.rspValid = true ∧ exec (.construct len key) t = .next t) ∧
  (∀ (s : State) (p q : InPorts) (rest : List InPorts), s.fsm = .run → p.rst = q.rst →
    step { s with inputs := p :: rest } = step { s with inputs := q :: rest })

/-- 41_key_schedule.md R126: on key bytes of any number, `CONSTRUCT` realises the transaction-level `Construct`. -/
def Obligations.ConstructRealisesTransaction : Prop :=
  ∀ (s : State) (bytes : List Byte), s.ready →
    ∃ t, exec (.construct (hostKeyLen bytes.length) (keyBytesToBits bytes)) s = .next t ∧
      match constructKey bytes with
      | some k => bytes.length = 32 ∧ t.ctxValid = true ∧ t.k = k ∧ t.rspCode = rspOk ∧
          ∀ i : Fin 8, k[i] = wordOfBytes (bytes.getD (4 * i.val) 0) (bytes.getD (4 * i.val + 1) 0)
            (bytes.getD (4 * i.val + 2) 0) (bytes.getD (4 * i.val + 3) 0)
      | none => bytes.length ≠ 32 ∧ t.ctxValid = false ∧ t.rspCode = rspInvalidKeyLength

/-- The accept edge of `ENCRYPT`, with and without a context. -/
def Obligations.EncryptAcceptEdge : Prop :=
  (∀ len key blk, decodeFields 0b10#2 len key blk = .encrypt blk) ∧
  (∀ (s : State) (blk : BlockBits), s.ready → s.ctxValid = true →
    exec (.encrypt blk) s =
      .next { s with n1 := blk.extractLsb' 0 32, n2 := blk.extractLsb' 32 32, mode := .encrypt, rnd := 0#5, fsm := .run,
                     rspValid := false }) ∧
  (∀ (s : State) (blk : BlockBits), s.ready → s.ctxValid = false →
    exec (.encrypt blk) s = .next { s with rspValid := true, rspCode := 0b10#2 })

/-- The accept edge of `DECRYPT`, with and without a context. -/
def Obligations.DecryptAcceptEdge : Prop :=
  (∀ len key blk, decodeFields 0b11#2 len key blk = .decrypt blk) ∧
  (∀ (s : State) (blk : BlockBits), s.ready → s.ctxValid = true →
    exec (.decrypt blk) s =
      .next { s with n1 := blk.extractLsb' 0 32, n2 := blk.extractLsb' 32 32, mode := .decrypt, rnd := 0#5, fsm := .run,
                     rspValid := false }) ∧
  (∀ (s : State) (blk : BlockBits), s.ready → s.ctxValid = false →
    exec (.decrypt blk) s = .next { s with rspValid := true, rspCode := 0b10#2 })

/-- What an accepted `CONSTRUCT` leaves unchanged: everything but `K`, `CTX_VALID`, `RSP_VALID` and `RSP_CODE`. -/
def Obligations.ConstructFrame : Prop :=
  ∀ (s t : State) (len : Byte) (key : KeyBits), s.fsm = .idle → exec (.construct len key) s = .next t →
    t.n1 = s.n1 ∧ t.n2 = s.n2 ∧ t.rnd = s.rnd ∧ t.mode = s.mode ∧ t.fsm = s.fsm ∧ t.blkOut = s.blkOut ∧
      t.resetSeen = s.resetSeen ∧ t.inputs = s.inputs

/-- What an accepted `ENCRYPT` or `DECRYPT` leaves unchanged: with a context everything but `N1`, `N2`, `MODE`, `RND`,
`FSM` and `RSP_VALID`; without one everything but `RSP_VALID` and `RSP_CODE`. -/
def Obligations.TransformStartFrame : Prop :=
  ∀ (s t : State) (i : Instr) (blk : BlockBits), i = .encrypt blk ∨ i = .decrypt blk → s.fsm = .idle →
    exec i s = .next t →
    t.k = s.k ∧ t.ctxValid = s.ctxValid ∧ t.blkOut = s.blkOut ∧ t.resetSeen = s.resetSeen ∧ t.inputs = s.inputs ∧
      (s.ctxValid = true → t.rspCode = s.rspCode) ∧
      (s.ctxValid = false → t.n1 = s.n1 ∧ t.n2 = s.n2 ∧ t.mode = s.mode ∧ t.rnd = s.rnd ∧ t.fsm = s.fsm)

/-- What an accepted `NOP` leaves unchanged: everything but `RSP_VALID`. -/
def Obligations.NopFrame : Prop :=
  ∀ s t : State, s.fsm = .idle → exec .nop s = .next t →
    t.k = s.k ∧ t.ctxValid = s.ctxValid ∧ t.n1 = s.n1 ∧ t.n2 = s.n2 ∧ t.rnd = s.rnd ∧ t.mode = s.mode ∧ t.fsm = s.fsm ∧
      t.blkOut = s.blkOut ∧ t.rspCode = s.rspCode ∧ t.resetSeen = s.resetSeen ∧ t.inputs = s.inputs

/-! ### The registers, each over every edge -/

/-- 10_state.md R21, section 2: only an accepted `CONSTRUCT` and reset write the subkeys. -/
def Obligations.SubkeysWrittenOnlyByConstruct : Prop :=
  ∀ s t : State, step s = .next t → ∀ i : Fin 8,
    t.k[i] =
      if s.ports.rst = true then 0#32
      else
        match acceptedCommand s with
        | some (.construct len key) => if len = 32#8 then key.extractLsb' (32 * i.val) 32 else 0#32
        | _ => s.k[i]

/-- 10_state.md R22: what writes `CTX_VALID`. -/
def Obligations.ContextFlagWrittenOnlyByConstruct : Prop :=
  (∀ s t : State, step s = .next t →
    t.ctxValid =
      if s.ports.rst = true then false
      else
        match acceptedCommand s with
        | some (.construct len _) => decide (len = 32#8)
        | _ => s.ctxValid) ∧
  ∀ (s : State) (rst : Bool), (outPorts s rst).ctxValid = s.ctxValid

/-- 10_state.md R23, R24: the working words are loaded at a transform's accept edge, `N1` is updated in odd rounds and
`N2` in even ones, otherwise they keep their values, and no port reads them. -/
def Obligations.WorkingWordsLoadAndRounds : Prop :=
  (∀ (s : State) (rst : Bool) (x y : Word), outPorts { s with n1 := x, n2 := y } rst = outPorts s rst) ∧
  ∀ s t : State, step s = .next t →
    (t.n1 =
      if s.ports.rst = true then 0#32
      else if s.fsm = .run then
        if s.rnd.toNat % 2 = 1 then s.n1 ^^^ roundF Config.sbox (s.n2 + s.k[ksel s.mode s.rnd.toNat]) else s.n1
      else
        match acceptedCommand s with
        | some (.encrypt blk) => if s.ctxValid = true then blk.extractLsb' 0 32 else s.n1
        | some (.decrypt blk) => if s.ctxValid = true then blk.extractLsb' 0 32 else s.n1
        | _ => s.n1) ∧
    (t.n2 =
      if s.ports.rst = true then 0#32
      else if s.fsm = .run then
        if s.rnd.toNat % 2 = 0 then s.n2 ^^^ roundF Config.sbox (s.n1 + s.k[ksel s.mode s.rnd.toNat]) else s.n2
      else
        match acceptedCommand s with
        | some (.encrypt blk) => if s.ctxValid = true then blk.extractLsb' 32 32 else s.n2
        | some (.decrypt blk) => if s.ctxValid = true then blk.extractLsb' 32 32 else s.n2
        | _ => s.n2)

/-- 10_state.md R25: how `RND` counts, from states in which it is 0 while IDLE (10_state.md R33); no port shows it. -/
def Obligations.RoundCounterCounts : Prop :=
  (∀ (s : State) (rst : Bool) (r : BitVec 5), outPorts { s with rnd := r } rst = outPorts s rst) ∧
  ∀ s t : State, (s.fsm = .idle → s.rnd = 0#5) → step s = .next t →
    t.rnd =
      (if s.ports.rst = true then 0#5
       else if s.fsm = .run then (if s.rnd = 31#5 then 0#5 else s.rnd + 1#5)
       else 0#5) ∧
    (t.fsm = .idle → t.rnd = 0#5)

/-- 10_state.md R26: only a transform's accept edge and reset write `MODE`; no port shows it. -/
def Obligations.ModeWrittenOnlyAtTransformAccept : Prop :=
  (∀ (s : State) (rst : Bool) (m : Mode), outPorts { s with mode := m } rst = outPorts s rst) ∧
  ∀ s t : State, step s = .next t →
    t.mode =
      if s.ports.rst = true then .encrypt
      else
        match acceptedCommand s with
        | some (.encrypt _) => if s.ctxValid = true then .encrypt else s.mode
        | some (.decrypt _) => if s.ctxValid = true then .decrypt else s.mode
        | _ => s.mode

/-- 10_state.md R27: the two transitions of `FSM` and when each happens. -/
def Obligations.FsmTransitions : Prop :=
  State.reset.fsm = .idle ∧
  ∀ s t : State, step s = .next t →
    (s.fsm = .idle → (t.fsm = .run ↔ s.ctxValid = true ∧
      ∃ blk, acceptedCommand s = some (.encrypt blk) ∨ acceptedCommand s = some (.decrypt blk))) ∧
    (s.fsm = .run → (t.fsm = .idle ↔ s.ports.rst = true ∨ s.rnd = 31#5))

/-- 10_state.md R28: only a completion edge and reset write `BLK_OUT`. -/
def Obligations.ResultWrittenOnlyAtCompletion : Prop :=
  ∀ s t : State, step s = .next t →
    t.blkOut =
      if s.ports.rst = true then 0#64
      else if s.fsm = .run ∧ s.rnd = 31#5 then t.n1 ++ t.n2
      else s.blkOut

/-- 10_state.md R29: `RSP_VALID` is 1 in exactly the cycle after an edge that produced a response. -/
def Obligations.RspValidOnlyAfterResponse : Prop :=
  State.reset.rspValid = false ∧
  ∀ s t : State, step s = .next t →
    (t.rspValid = true ↔
      s.ports.rst = false ∧
        ((s.fsm = .run ∧ s.rnd = 31#5) ∨ (∃ len key, acceptedCommand s = some (.construct len key)) ∨
          (s.ctxValid = false ∧
            ∃ blk, acceptedCommand s = some (.encrypt blk) ∨ acceptedCommand s = some (.decrypt blk))))

/-- 60_exceptions.md section 1: what causes each response code, and that the code is held until the next response. -/
def Obligations.ResponseCodesHaveTheirCauses : Prop :=
  ∀ s t : State, step s = .next t → s.ports.rst = false →
    (t.rspValid = false → t.rspCode = s.rspCode) ∧
    (t.rspValid = true →
      (t.rspCode = 0b00#2 ↔ (s.fsm = .run ∧ s.rnd = 31#5) ∨ ∃ key, acceptedCommand s = some (.construct 32#8 key)) ∧
      (t.rspCode = 0b01#2 ↔ ∃ len key, len ≠ 32#8 ∧ acceptedCommand s = some (.construct len key)) ∧
      (t.rspCode = 0b10#2 ↔ s.ctxValid = false ∧
        ∃ blk, acceptedCommand s = some (.encrypt blk) ∨ acceptedCommand s = some (.decrypt blk)))

/-- 60_exceptions.md R204: no edge writes the reserved response code. -/
def Obligations.ReservedCodeNeverWritten : Prop :=
  ∀ s t : State, step s = .next t → t.rspCode = 0b11#2 → s.rspCode = 0b11#2 ∧ t.rspValid = false

/-- 10_state.md R32: the output ports. -/
def Obligations.OutputPortsReadRegisters : Prop :=
  ∀ (s : State) (rst : Bool), s.resetSeen = true →
    ∃ o, sample s rst = .ok o ∧ (o.cmdReady = true ↔ s.fsm = .idle ∧ rst = false) ∧ (o.busy = true ↔ s.fsm = .run) ∧
      o.ctxValid = s.ctxValid ∧ o.rspValid = s.rspValid ∧ o.rspCode = s.rspCode ∧ o.blkOut = s.blkOut

/-! ### Invariants -/

/-- 10_state.md section 4: every edge keeps the register invariants, from every state that has them. -/
def Obligations.StepKeepsRegisterInvariants : Prop :=
  ∀ s t : State, s.Inv ∧ s.CodeLegal → step s = .next t → t.Inv ∧ t.CodeLegal

/-- The register invariants hold at reset, with any frames of the host to come. -/
def Obligations.ResetMeetsRegisterInvariants : Prop :=
  ∀ ins : List InPorts, ({ State.reset with inputs := ins }).Inv ∧ ({ State.reset with inputs := ins }).CodeLegal

/-- 41_key_schedule.md R127: from any round of a transform up to its completion edge no subkey and no context flag
changes. -/
def Obligations.ContextStableDuringTransform : Prop :=
  ∀ (s : State) (n : Nat), s.resetSeen = true → s.fsm = .run → n ≤ 32 - s.rnd.toNat → s.quietFor n →
    ∃ t, runSteps n s = .next t ∧ t.k = s.k ∧ t.ctxValid = s.ctxValid

/-! ### The running transform -/

/-- 43_block_transform.md R172, R162: the RUN edge of rounds 0 to 30. -/
def Obligations.RunEdgeDoesOneRound : Prop :=
  ∀ s : State, s.resetSeen = true → s.ports.rst = false → s.fsm = .run → s.rnd ≠ 31#5 →
    ∃ t, step s = .next t ∧
      (s.rnd.toNat % 2 = 0 → t = { s with
        n2 := s.n2 ^^^ roundF Config.sbox (s.n1 + s.k[ksel s.mode s.rnd.toNat]),
        rnd := s.rnd + 1#5, rspValid := false, inputs := t.inputs }) ∧
      (s.rnd.toNat % 2 = 1 → t = { s with
        n1 := s.n1 ^^^ roundF Config.sbox (s.n2 + s.k[ksel s.mode s.rnd.toNat]),
        rnd := s.rnd + 1#5, rspValid := false, inputs := t.inputs })

/-- 43_block_transform.md R173: the completion edge. -/
def Obligations.CompletionEdgeGivesResult : Prop :=
  ksel .encrypt 31 = 0 ∧ ksel .decrypt 31 = 0 ∧
  ∀ s : State, s.resetSeen = true → s.ports.rst = false → s.fsm = .run → s.rnd = 31#5 →
    ∃ (n1' : Word) (t : State), n1' = s.n1 ^^^ roundF Config.sbox (s.n2 + s.k[ksel s.mode 31]) ∧ step s = .next t ∧
      t = { s with n1 := n1', blkOut := n1' ++ s.n2, rspValid := true, rspCode := 0b00#2, fsm := .idle, rnd := 0#5,
                   inputs := t.inputs } ∧
      sampleCmdReady t false = .ok true

/-- 43_block_transform.md R175: a started transform runs exactly 32 rounds, one per edge, and completes exactly 32
edges after its accept edge, for every key, block and mode. -/
def Obligations.TransformTakesThirtyTwoEdges : Prop :=
  ∀ (s : State) (i : Instr) (blk : BlockBits), i = .encrypt blk ∨ i = .decrypt blk → acceptedCommand s = some i →
    s.ctxValid = true → s.quietFor 33 →
    (∀ n, n < 32 → ∃ u, runSteps (n + 1) s = .next u ∧ u.fsm = .run ∧ u.rnd.toNat = n ∧ u.rspValid = false) ∧
    ∃ t, runSteps 33 s = .next t ∧ t.fsm = .idle ∧ t.rspValid = true ∧ t.rspCode = 0b00#2

/-- The 33 edges of an accepted `ENCRYPT` leave `Encrypt64` of its block in `BLK_OUT`. -/
def Obligations.EncryptRunYieldsEncrypt64 : Prop :=
  ∀ (s : State) (blk : BlockBits), acceptedCommand s = some (.encrypt blk) → s.ctxValid = true → s.quietFor 33 →
    ∃ t, runSteps 33 s = .next t ∧ t.k = s.k ∧ t.ctxValid = true ∧ t.rspValid = true ∧ t.rspCode = 0b00#2 ∧
      (let out := encrypt64 Config.sbox s.k { w0 := blk.extractLsb' 0 32, w1 := blk.extractLsb' 32 32 }
       t.blkOut = out.w1 ++ out.w0)

/-- The 33 edges of an accepted `DECRYPT` leave `Decrypt64` of its block in `BLK_OUT`. -/
def Obligations.DecryptRunYieldsDecrypt64 : Prop :=
  ∀ (s : State) (blk : BlockBits), acceptedCommand s = some (.decrypt blk) → s.ctxValid = true → s.quietFor 33 →
    ∃ t, runSteps 33 s = .next t ∧ t.k = s.k ∧ t.ctxValid = true ∧ t.rspValid = true ∧ t.rspCode = 0b00#2 ∧
      (let out := decrypt64 Config.sbox s.k { w0 := blk.extractLsb' 0 32, w1 := blk.extractLsb' 32 32 }
       t.blkOut = out.w1 ++ out.w0)

/-- 70_reset_and_hazards.md section 3: two machines whose keys, blocks and transform directions differ, and nothing
else, show the same control state after any number of edges. -/
def Obligations.ControlIndependentOfKeyAndBlock : Prop :=
  ∀ s t : State, s.control = t.control → ∀ n, sameControl (runSteps n s) (runSteps n t)

/-! ### The cipher -/

/-- 43_block_transform.md R163, R164, R165: the two subkey orders, and that each is the other backwards. -/
def Obligations.SubkeyOrders : Prop :=
  (List.range 32).map (fun j => (ksel .encrypt j).val) =
    [0, 1, 2, 3, 4, 5, 6, 7] ++ [0, 1, 2, 3, 4, 5, 6, 7] ++ [0, 1, 2, 3, 4, 5, 6, 7] ++ [7, 6, 5, 4, 3, 2, 1, 0] ∧
  (List.range 32).map (fun j => (ksel .decrypt j).val) =
    [0, 1, 2, 3, 4, 5, 6, 7] ++ [7, 6, 5, 4, 3, 2, 1, 0] ++ [7, 6, 5, 4, 3, 2, 1, 0] ++ [7, 6, 5, 4, 3, 2, 1, 0] ∧
  ∀ j : Nat, j < 32 → ksel .decrypt j = ksel .encrypt (31 - j)

/-- 43_block_transform.md R166, R167, R168: the transforms as the spec's loop over `(n1, n2)`, with the output swapped. -/
def Obligations.TransformsAreTheSpecLoop : Prop :=
  ∀ (sb : SBox) (k : Subkeys) (w0 w1 : Word) (m : Mode),
    let out := (List.range 32).foldl
      (fun (n : Word × Word) (j : Nat) =>
        if j % 2 = 0 then (n.1, n.2 ^^^ roundF sb (n.1 + k[ksel m j]))
        else (n.1 ^^^ roundF sb (n.2 + k[ksel m j]), n.2))
      (w0, w1)
    (m = .encrypt → encrypt64 sb k { w0 := w0, w1 := w1 } = { w0 := out.2, w1 := out.1 }) ∧
    (m = .decrypt → decrypt64 sb k { w0 := w0, w1 := w1 } = { w0 := out.2, w1 := out.1 })

/-- 43_block_transform.md R169: the round trip, for any S-boxes whatsoever. -/
def Obligations.DecryptInvertsEncrypt : Prop :=
  ∀ (sb : SBox) (k : Subkeys) (b : Block), decrypt64 sb k (encrypt64 sb k b) = b

/-- 43_block_transform.md R176: with eight equal subkeys encryption and decryption are the same function. -/
def Obligations.EqualSubkeysMakeTransformsEqual : Prop :=
  ∀ (sb : SBox) (k : Subkeys) (b : Block), (∀ i j : Fin 8, k[i] = k[j]) → encrypt64 sb k b = decrypt64 sb k b

/-- 40_table_rom.md R105: every entry of the four tables. -/
def Obligations.TableEntries : Prop :=
  ∀ (sb : SBox) (i : Byte),
    tHi sb i = rowAt sb[7] (i.extractLsb' 4 4) ++ rowAt sb[6] (i.extractLsb' 0 4) ∧
    tMid sb i = rowAt sb[5] (i.extractLsb' 4 4) ++ rowAt sb[4] (i.extractLsb' 0 4) ∧
    tLow sb i = rowAt sb[3] (i.extractLsb' 4 4) ++ rowAt sb[2] (i.extractLsb' 0 4) ∧
    tLsb sb i = rowAt sb[1] (i.extractLsb' 4 4) ++ rowAt sb[0] (i.extractLsb' 0 4)

/-- 40_table_rom.md R108: with permutation S-boxes every table is a bijection on the bytes. -/
def Obligations.TablesAreBijections : Prop :=
  ∀ sb : SBox, sb.wf = true →
    Function.Bijective (tHi sb) ∧ Function.Bijective (tMid sb) ∧ Function.Bijective (tLow sb) ∧
      Function.Bijective (tLsb sb)

/-- 40_table_rom.md R109: the tables map nibble `n` of a word through `SBOX[n+1]`. -/
def Obligations.SubstitutionActsOnNibbles : Prop :=
  ∀ (sb : SBox) (x : Word),
    substitute sb x = tHi sb (x.extractLsb' 24 8) ++ tMid sb (x.extractLsb' 16 8) ++ tLow sb (x.extractLsb' 8 8)
      ++ tLsb sb (x.extractLsb' 0 8) ∧
    ∀ n : Fin 8, (substitute sb x).extractLsb' (4 * n.val) 4 = rowAt sb[n] (x.extractLsb' (4 * n.val) 4)

/-- 42_round_function.md R144, R145: `F` in full, and the rotation bit by bit. -/
def Obligations.RoundFunctionInFull : Prop :=
  (∀ y : Word, (rotl32 y 11).extractLsb' 11 21 = y.extractLsb' 0 21 ∧
    (rotl32 y 11).extractLsb' 0 11 = y.extractLsb' 21 11) ∧
  ∀ (sb : SBox) (x : Word),
    roundF sb x = (tHi sb (x.extractLsb' 24 8) ++ tMid sb (x.extractLsb' 16 8) ++ tLow sb (x.extractLsb' 8 8)
      ++ tLsb sb (x.extractLsb' 0 8) : Word).rotateLeft 11

/-- 42_round_function.md R147 (b): with permutation S-boxes `F` is a bijection on words. -/
def Obligations.RoundFunctionIsBijection : Prop := ∀ sb : SBox, sb.wf = true → Function.Bijective (roundF sb)

/-- 41_key_schedule.md R121: the subkeys of a key, little-endian, which is plain wiring. -/
def Obligations.KeyUnpackIsLittleEndian : Prop :=
  ∀ (key : KeyBits) (i : Fin 8),
    (keyUnpack key)[i] =
      ((key.extractLsb' (8 * (4 * i.val)) 8).setWidth 32 ||| ((key.extractLsb' (8 * (4 * i.val + 1)) 8).setWidth 32 <<< 8)
        ||| ((key.extractLsb' (8 * (4 * i.val + 2)) 8).setWidth 32 <<< 16)
        ||| ((key.extractLsb' (8 * (4 * i.val + 3)) 8).setWidth 32 <<< 24)) ∧
    (keyUnpack key)[i] = key.extractLsb' (32 * i.val) 32

/-! ### Encoding and the host's boundary -/

/-- 30_encoding.md section 1: decoding the bundle of any well-formed command gives the command back, every operand at
every value, and its unread fields are 0. -/
def Obligations.DecodeInvertsEncode : Prop :=
  ∀ i : Instr, i.wf = true →
    decodeBundle (encode i) = i ∧ decodeWord (encode i).toNat = .ok i ∧
      (encode i).extractLsb' 0 2 = i.op ∧ (encode i).extractLsb' 2 8 = i.len ∧
      (encode i).extractLsb' 10 256 = i.key ∧ (encode i).extractLsb' 266 64 = i.blk

/-- Every bundle is the bundle of its command but for the fields the command does not read. -/
def Obligations.EncodeOfDecodeKeepsReadFields : Prop :=
  ∀ b : Bundle,
    bundleOp (encode (decodeBundle b)) = bundleOp b ∧
    (bundleOp b = 0b01#2 → bundleLen (encode (decodeBundle b)) = bundleLen b ∧
      bundleKey (encode (decodeBundle b)) = bundleKey b) ∧
    (bundleOp b = 0b10#2 ∨ bundleOp b = 0b11#2 → bundleBlk (encode (decodeBundle b)) = bundleBlk b) ∧
    (bundleOp b = 0b01#2 → bundleBlk b = 0 → encode (decodeBundle b) = b)

/-- 30_encoding.md R71: the command of each value of `op`; all four are defined. -/
def Obligations.OpcodeSelectsCommand : Prop :=
  ∀ (op : BitVec 2) (len : Byte) (key : KeyBits) (blk : BlockBits),
    (op = 0b00#2 ∧ decodeFields op len key blk = .nop) ∨ (op = 0b01#2 ∧ decodeFields op len key blk = .construct len key) ∨
      (op = 0b10#2 ∧ decodeFields op len key blk = .encrypt blk) ∨
      (op = 0b11#2 ∧ decodeFields op len key blk = .decrypt blk)

/-- 30_encoding.md section 4: every number that fits the port decodes, and a `cmd_op` above 3 is refused. That a number
wider than the whole bundle is refused is the model's choice (DESIGN CHOICE, log entry 8). -/
def Obligations.DecodingTotalOnThePort : Prop :=
  (∀ w : Nat, w < 2 ^ 330 → ∃ i, decodeWord w = .ok i) ∧
  (∀ w : Nat, 2 ^ 330 ≤ w → decodeWord w = .error .bundleTooWide) ∧
  (∀ op : Nat, op ≤ 3 → decodeOp op = .ok (BitVec.ofNat 2 op)) ∧
  (∀ op : Nat, 3 < op → decodeOp op = .error .opTooWide)

/-- Bundles written out in 95_test_vectors.md section 7 decode to the commands they stand for. -/
def Obligations.SpecBundlesDecode : Prop :=
  decodeBundle 0x000000000000000007C7874706C6864605C5854504C4844403C3834302C2824201C1814100C08040081#330 =
    .construct 32#8 0x1F1E1D1C1B1A191817161514131211100F0E0D0C0B0A09080706050403020100#256 ∧
  decodeBundle 0x000000000000000007C7874706C6864605C5854504C4844403C3834302C2824201C1814100C0804007D#330 =
    .construct 31#8 0x1F1E1D1C1B1A191817161514131211100F0E0D0C0B0A09080706050403020100#256 ∧
  decodeBundle 0x226AF37BC048D159C000000000000000000000000000000000000000000000000000000000000000002#330 =
    .encrypt 0x89ABCDEF01234567#64 ∧
  decodeBundle 0x122A6881B3EB71FFC000000000000000000000000000000000000000000000000000000000000000003#330 =
    .decrypt 0x48A9A206CFADC7FF#64 ∧
  decodeBundle 0x00000000000000000000000000000000000000000000000000000000000000000000000000000000000#330 = .nop

/-- 30_encoding.md section 6: the pseudo-instructions, and the words they form under a byte order that places every byte
once (how orders other than the default are named: log entry 4) and under the default one. A key that is not 32 bytes
and a buffer that is not 8 bytes are refused (70_reset_and_hazards.md section 4; the form of the refusal: log entry 12). -/
def Obligations.PseudoInstructionsExpand : Prop :=
  (∀ (order : BlockByteOrder) (key : List Byte),
    (key.length = 32 → expandLine order (.key key) = .ok [.construct 32 key]) ∧
    (key.length ≠ 32 → expandLine order (.key key) = .error .keyBytes)) ∧
  ∀ (order : BlockByteOrder) (bytes : List Byte),
    (order.wf = true → bytes.length = 8 →
      ∃ w0 w1, expandLine order (.encb bytes) = .ok [.encrypt w0 w1, .wait] ∧
        expandLine order (.decb bytes) = .ok [.decrypt w0 w1, .wait] ∧
        (∀ j : Fin 8, (w1 ++ w0 : BlockBits).extractLsb' (8 * j.val) 8 = bytes.getD (order[j]).val 0) ∧
        (order = Config.orderLE →
          w0 = wordOfBytes (bytes.getD 0 0) (bytes.getD 1 0) (bytes.getD 2 0) (bytes.getD 3 0) ∧
          w1 = wordOfBytes (bytes.getD 4 0) (bytes.getD 5 0) (bytes.getD 6 0) (bytes.getD 7 0))) ∧
    (order.wf = true → bytes.length ≠ 8 →
      expandLine order (.encb bytes) = .error .blockBytes ∧ expandLine order (.decb bytes) = .error .blockBytes) ∧
    (order.wf = false →
      expandLine order (.encb bytes) = .error .byteOrder ∧ expandLine order (.decb bytes) = .error .byteOrder)

/-- 70_reset_and_hazards.md sections 1, 2 and 4: a host that drives a script reads an output in every cycle and so faults
before the first reset edge; a script is taken exactly when every line of it is well formed; a refused script never
reaches the core; and a program applies reset before any other use. The forms of the fault and of the refusals are the
model's choice (log entries 2 and 12). S-box values are a configuration exactly when every row is a permutation, and no
program runs on others (40_table_rom.md section 2; the form of the refusal: log entry 3). -/
def Obligations.HostDutiesEnforced : Prop :=
  (∀ (cfg : SBoxConfig) (fuel : Nat) (h : HostState) (s : State), s.resetSeen = false →
    runScript cfg (fuel + 1) h s = .fault .beforeFirstReset) ∧
  (∀ (order : BlockByteOrder) (script : List ScriptLine), order.wf = true →
    ((∃ todo, scriptActions order script = .ok todo) ↔ ∀ l ∈ script, l.wf = true)) ∧
  Config.sbox.wf = true ∧
  ∀ (sb : SBox) (order : BlockByteOrder) (script : List ScriptLine) (fuel : Nat) (s : State),
    (sb.wf = false → admitSbox sb = none ∧ runProgram sb order script fuel s = .error .sboxRow) ∧
    (sb.wf = true → ∃ cfg, admitSbox sb = some cfg ∧ cfg.sbox = sb ∧
      (∀ e, scriptActions order script = .error e → runProgram sb order script fuel s = .error e) ∧
      ∀ todo, scriptActions order script = .ok todo →
        runProgram sb order script fuel s =
          .ok (runScript cfg fuel (HostState.start todo) { State.reset with inputs := s.inputs }))

/-- 00_scope.md section 3: the host's key length is the byte count up to 255 and 255 above, so it is 32 only for
32 bytes. -/
def Obligations.HostKeyLengthSaturates : Prop :=
  ∀ n : Nat, (n ≤ 255 → (hostKeyLen n).toNat = n) ∧ (256 ≤ n → hostKeyLen n = 255#8) ∧ (hostKeyLen n = 32#8 ↔ n = 32)

/-- 70_reset_and_hazards.md section 3: undefined control levels are refused in every cycle, undefined operand levels are
refused while `cmd_valid = 1`, and nothing else is; a frame that is taken carries the wires' bits. The form of the two
refusals, and that undefined operands are taken while `cmd_valid = 0`, are the model's reading (DEDUCED, log entry 9). -/
def Obligations.UndefinedLevelsRefused : Prop :=
  ∀ p : Pins,
    (p.rst = .undefined ∨ p.cmdValid = .undefined ∨ Level.undefined ∈ p.cmdOp.toList → samplePins p = .error .undefinedControl) ∧
    (p.rst ≠ .undefined → p.cmdValid = .high → Level.undefined ∉ p.cmdOp.toList →
      Level.undefined ∈ p.keyLen.toList ∨ Level.undefined ∈ p.keyIn.toList ∨ Level.undefined ∈ p.blkIn.toList →
      samplePins p = .error .undefinedOperand) ∧
    (p.rst ≠ .undefined → p.cmdValid = .low → Level.undefined ∉ p.cmdOp.toList →
      ∃ f, samplePins p = .ok f ∧ f.cmdValid = false ∧ f.rst = decide (p.rst = .high) ∧
        ∀ i : Fin 2, f.cmdOp.getLsbD i = decide (p.cmdOp[i] = .high)) ∧
    (p.rst ≠ .undefined → p.cmdValid = .high → Level.undefined ∉ p.cmdOp.toList → Level.undefined ∉ p.keyLen.toList →
      Level.undefined ∉ p.keyIn.toList → Level.undefined ∉ p.blkIn.toList →
      ∃ f, samplePins p = .ok f ∧ f.cmdValid = true ∧ f.rst = decide (p.rst = .high) ∧
        (∀ i : Fin 2, f.cmdOp.getLsbD i = decide (p.cmdOp[i] = .high)) ∧
        (∀ i : Fin 8, f.keyLen.getLsbD i = decide (p.keyLen[i] = .high)) ∧
        (∀ i : Fin 256, f.keyIn.getLsbD i = decide (p.keyIn[i] = .high)) ∧
        ∀ i : Fin 64, f.blkIn.getLsbD i = decide (p.blkIn[i] = .high))
end

