-- ==== Sys2Proof/Laws/Decode.lean ====
section
/-! SUPPORT. What each bundle field reads from a bundle made of four fields, and what the decoder answers for each
opcode. -/

namespace Sys2Proof

/-- Bit `j` of a bundle made of four fields. -/
theorem bundleOf_getLsbD (op : BitVec 2) (len : Byte) (key : KeyBits) (blk : BlockBits) (j : Nat) :
    (bundleOf op len key blk).getLsbD j =
      if j < 2 then op.getLsbD j
      else if j < 10 then len.getLsbD (j - 2)
      else if j < 266 then key.getLsbD (j - 10)
      else blk.getLsbD (j - 266) := by
  have h : (bundleOf op len key blk).getLsbD j = (blk ++ key ++ len ++ op).getLsbD j := rfl
  rw [h, BitVec.getLsbD_append, BitVec.getLsbD_append, BitVec.getLsbD_append]
  by_cases h2 : j < 2
  · simp [h2]
  by_cases h10 : j < 10
  · simp [h2, h10, show j - 2 < 8 by omega]
  by_cases h266 : j < 266
  · simp [h2, h10, h266, show ¬ j - 2 < 8 by omega, show j - 10 < 256 by omega, show j - 2 - 8 = j - 10 by omega]
  · simp [h2, h10, h266, show ¬ j - 2 < 8 by omega, show ¬ j - 2 - 8 < 256 by omega,
      show j - 2 - 8 - 256 = j - 266 by omega]

theorem bundleOp_bundleOf (op : BitVec 2) (len : Byte) (key : KeyBits) (blk : BlockBits) :
    bundleOp (bundleOf op len key blk) = op := by
  ext i hi
  simp [bundleOp, bundleOf_getLsbD, hi]

theorem bundleLen_bundleOf (op : BitVec 2) (len : Byte) (key : KeyBits) (blk : BlockBits) :
    bundleLen (bundleOf op len key blk) = len := by
  ext i hi
  simp [bundleLen, bundleOf_getLsbD, show ¬ 2 + i < 2 by omega, show 2 + i < 10 by omega, hi]

theorem bundleKey_bundleOf (op : BitVec 2) (len : Byte) (key : KeyBits) (blk : BlockBits) :
    bundleKey (bundleOf op len key blk) = key := by
  ext i hi
  simp [bundleKey, bundleOf_getLsbD, show ¬ 10 + i < 2 by omega, show ¬ 10 + i < 10 by omega,
    show 10 + i < 266 by omega, hi]

theorem bundleBlk_bundleOf (op : BitVec 2) (len : Byte) (key : KeyBits) (blk : BlockBits) :
    bundleBlk (bundleOf op len key blk) = blk := by
  ext i hi
  simp [bundleBlk, bundleOf_getLsbD, show ¬ 266 + i < 2 by omega, show ¬ 266 + i < 10 by omega,
    show ¬ 266 + i < 266 by omega, hi]

theorem lowBits_eq (nbits w : Nat) : lowBits nbits w = w % 2 ^ nbits := by
  unfold lowBits
  split
  · next h =>
    rw [Nat.shiftRight_eq_div_pow] at h
    exact (Nat.mod_eq_of_lt ((Nat.div_eq_zero_iff_lt (Nat.two_pow_pos nbits)).mp h)).symm
  · rfl

theorem bundleFits_iff (w : Nat) : bundleFits w = true ↔ w < 2 ^ bundleBits := by
  rw [bundleFits, decide_eq_true_eq, Nat.shiftRight_eq_div_pow, Nat.div_eq_zero_iff_lt (Nat.two_pow_pos _)]

/-- A field taken from a bundle's number is the bundle's field. -/
theorem natField_toNat (b : Bundle) (start len : Nat) : natField b.toNat start len = b.extractLsb' start len := rfl

/-- The decoder on a bundle's number answers the decoded bundle. -/
theorem decodeWord_toNat (b : Bundle) : decodeWord b.toNat = .ok (decodeBundle b) :=
  if_pos ((bundleFits_iff _).mpr b.isLt)

theorem decodeFields_nop (len : Byte) (key : KeyBits) (blk : BlockBits) : decodeFields 0b00#2 len key blk = .nop := rfl

theorem decodeFields_construct (len : Byte) (key : KeyBits) (blk : BlockBits) :
    decodeFields 0b01#2 len key blk = .construct len key := rfl

theorem decodeFields_encrypt (len : Byte) (key : KeyBits) (blk : BlockBits) :
    decodeFields 0b10#2 len key blk = .encrypt blk := rfl

theorem decodeFields_decrypt (len : Byte) (key : KeyBits) (blk : BlockBits) :
    decodeFields 0b11#2 len key blk = .decrypt blk := rfl

end Sys2Proof
end

