-- ==== Sys2Proof/Laws/HostScript.lean ====
section
/-! SUPPORT. What the host adapter and the driver can do with one line and one clock cycle. -/

namespace Sys2Proof.Machine

/-- Byte `j` of eight concatenated bytes, byte 0 lowest. -/
theorem byteLane (b : Fin 8 → Byte) (j : Fin 8) :
    (b 7 ++ b 6 ++ b 5 ++ b 4 ++ b 3 ++ b 2 ++ b 1 ++ b 0 : BlockBits).extractLsb' (8 * j.val) 8 = b j := by
  apply BitVec.eq_of_getLsbD_eq
  intro i hi
  simp only [BitVec.getLsbD_extractLsb', BitVec.getLsbD_append, hi, decide_true, Bool.true_and]
  fin_cases j <;> simp (disch := omega) only [if_pos, if_neg] <;> congr 1 <;> omega

/-- The block bits of a buffer: refused for a byte order that is none, refused for a length other than 8, else each
lane holds the byte the order names. -/
theorem blockBytesToBits_cases (order : BlockByteOrder) (bytes : List Byte) :
    (order.wf = false ∧ blockBytesToBits order bytes = .error .byteOrder) ∨
      (order.wf = true ∧ bytes.length ≠ 8 ∧ blockBytesToBits order bytes = .error .blockBytes) ∨
      (order.wf = true ∧ bytes.length = 8 ∧ ∃ bits, blockBytesToBits order bytes = .ok bits ∧
        ∀ j : Fin 8, bits.extractLsb' (8 * j.val) 8 = bytes.getD (order[j]).val 0) := by
  by_cases hw : order.wf = true
  · by_cases hb : bytes.length = 8
    · have lane (i : Fin 8) : bytes[(order[i]).val]'(by omega) = bytes.getD (order[i]).val 0 := by
        rw [List.getD_eq_getElem]
      refine .inr (.inr ⟨hw, hb, _, by rw [blockBytesToBits, if_pos hw, dif_pos hb], fun j => ?_⟩)
      exact (byteLane (fun i => bytes[(order[i]).val]'(by omega)) j).trans (lane j)
    · exact .inr (.inl ⟨hw, hb, by simp [blockBytesToBits, hw, hb]⟩)
  · exact .inl ⟨by simpa using hw, by simp [blockBytesToBits, hw]⟩

/-- Under an admitted byte order a line is taken exactly when it is well formed. -/
theorem expandLine_ok_iff (order : BlockByteOrder) (ho : order.wf = true) (l : ScriptLine) :
    (∃ lines, expandLine order l = .ok lines) ↔ l.wf = true := by
  have block : ∀ (line : Word → Word → ScriptLine) (bytes : List Byte),
      (∃ lines, expandBlockLine line order bytes = .ok lines) ↔ bytes.length = 8 := fun line bytes => by
    obtain ⟨h, _⟩ | ⟨_, h, e⟩ | ⟨_, h, bits, e, _⟩ := blockBytesToBits_cases order bytes
    · simp [h] at ho
    · simp [expandBlockLine, e, h, Except.map]
    · simp [expandBlockLine, e, h, Except.map]
  cases l with
  | construct len key =>
    by_cases hl : 255 < len <;> by_cases hk : key.length = 32 <;>
      simp [expandLine, ScriptLine.wf, Config.keyBytes, hl, hk]
    omega
  | key key => by_cases hk : key.length = 32 <;> simp [expandLine, ScriptLine.wf, Config.keyBytes, hk]
  | expect code w0 w1 => by_cases hc : code = rspReserved <;> simp [expandLine, ScriptLine.wf, hc]
  | encb bytes => simpa [expandLine, ScriptLine.wf] using block .encrypt bytes
  | decb bytes => simpa [expandLine, ScriptLine.wf] using block .decrypt bytes
  | _ => simp [expandLine, ScriptLine.wf]

/-- Values whose rows are permutations are admitted as they are. -/
theorem admitSbox_of_wf {sb : SBox} (h : sb.wf = true) : admitSbox sb = some { sbox := sb, wf := h } := dif_pos h

/-- Values with a row that is no permutation are refused. -/
theorem admitSbox_of_not_wf {sb : SBox} (h : sb.wf = false) : admitSbox sb = none := dif_neg (by simp [h])

/-- The values of a configuration are admitted as that configuration. -/
@[simp] theorem admitSbox_sbox (cfg : SBoxConfig) : admitSbox cfg.sbox = some cfg := admitSbox_of_wf cfg.wf

/-- The edge at which the host resets the core. -/
theorem edge_resetting (cfg : SBoxConfig) (s : State) :
    edge cfg InPorts.resetting s = .next { State.reset with inputs := s.inputs } := rfl

/-- A cycle of a driven script before the first reset edge is a fault, for the host samples the outputs. -/
theorem runScript_before_reset (cfg : SBoxConfig) (fuel : Nat) (h : HostState) {s : State} (hs : s.resetSeen = false) :
    runScript cfg (fuel + 1) h s = .fault .beforeFirstReset := by simp [runScript, sample, hs]

/-- After reset the host samples the output ports. -/
theorem sample_after_reset {s : State} (hs : s.resetSeen = true) (rst : Bool) : sample s rst = .ok (outPorts s rst) :=
  if_pos hs

/-- A driven script stops in the cycle in which the run has ended, with the state of that cycle. -/
theorem runScript_ended (cfg : SBoxConfig) (fuel : Nat) {h : HostState} {s : State} (hs : s.resetSeen = true)
    (he : runEnded h (outPorts s false) = true) :
    runScript cfg (fuel + 1) h s = .next ((h.cycle (outPorts s false)).1, s) := by
  simp only [runScript, sample_after_reset hs, he, if_true]

/-- A driven script goes on from the next state of a cycle in which the run has not ended. -/
theorem runScript_succ (cfg : SBoxConfig) (fuel : Nat) {h : HostState} {s t : State} (hs : s.resetSeen = true)
    (he : runEnded h (outPorts s false) = false) (ht : edge cfg (h.cycle (outPorts s false)).2 s = .next t) :
    runScript cfg (fuel + 1) h s = runScript cfg fuel (h.cycle (outPorts s false)).1 t := by
  simp [runScript, sample_after_reset hs, he, ht]

end Sys2Proof.Machine
end

