-- ==== Sys2Proof/Laws/State.lean ====
section
/-! SUPPORT. Each named update of State, field by field, so that no proof unfolds a record update. -/

namespace Sys2Proof.Machine

/-! `respond` -/

@[simp] theorem State.respond_k (s : State) (c : BitVec 2) : (s.respond c).k = s.k := rfl
@[simp] theorem State.respond_ctxValid (s : State) (c : BitVec 2) : (s.respond c).ctxValid = s.ctxValid := rfl
@[simp] theorem State.respond_n1 (s : State) (c : BitVec 2) : (s.respond c).n1 = s.n1 := rfl
@[simp] theorem State.respond_n2 (s : State) (c : BitVec 2) : (s.respond c).n2 = s.n2 := rfl
@[simp] theorem State.respond_rnd (s : State) (c : BitVec 2) : (s.respond c).rnd = s.rnd := rfl
@[simp] theorem State.respond_mode (s : State) (c : BitVec 2) : (s.respond c).mode = s.mode := rfl
@[simp] theorem State.respond_fsm (s : State) (c : BitVec 2) : (s.respond c).fsm = s.fsm := rfl
@[simp] theorem State.respond_blkOut (s : State) (c : BitVec 2) : (s.respond c).blkOut = s.blkOut := rfl
@[simp] theorem State.respond_rspValid (s : State) (c : BitVec 2) : (s.respond c).rspValid = true := rfl
@[simp] theorem State.respond_rspCode (s : State) (c : BitVec 2) : (s.respond c).rspCode = c := rfl
@[simp] theorem State.respond_resetSeen (s : State) (c : BitVec 2) : (s.respond c).resetSeen = s.resetSeen := rfl
@[simp] theorem State.respond_inputs (s : State) (c : BitVec 2) : (s.respond c).inputs = s.inputs := rfl

/-! `endPulse` -/

@[simp] theorem State.endPulse_k (s : State) : (s.endPulse).k = s.k := rfl
@[simp] theorem State.endPulse_ctxValid (s : State) : (s.endPulse).ctxValid = s.ctxValid := rfl
@[simp] theorem State.endPulse_n1 (s : State) : (s.endPulse).n1 = s.n1 := rfl
@[simp] theorem State.endPulse_n2 (s : State) : (s.endPulse).n2 = s.n2 := rfl
@[simp] theorem State.endPulse_rnd (s : State) : (s.endPulse).rnd = s.rnd := rfl
@[simp] theorem State.endPulse_mode (s : State) : (s.endPulse).mode = s.mode := rfl
@[simp] theorem State.endPulse_fsm (s : State) : (s.endPulse).fsm = s.fsm := rfl
@[simp] theorem State.endPulse_blkOut (s : State) : (s.endPulse).blkOut = s.blkOut := rfl
@[simp] theorem State.endPulse_rspValid (s : State) : (s.endPulse).rspValid = false := rfl
@[simp] theorem State.endPulse_rspCode (s : State) : (s.endPulse).rspCode = s.rspCode := rfl
@[simp] theorem State.endPulse_resetSeen (s : State) : (s.endPulse).resetSeen = s.resetSeen := rfl
@[simp] theorem State.endPulse_inputs (s : State) : (s.endPulse).inputs = s.inputs := rfl

/-! `setContext` -/

@[simp] theorem State.setContext_k (s : State) (k : Subkeys) (v : Bool) : (s.setContext k v).k = k := rfl
@[simp] theorem State.setContext_ctxValid (s : State) (k : Subkeys) (v : Bool) : (s.setContext k v).ctxValid = v := rfl
@[simp] theorem State.setContext_n1 (s : State) (k : Subkeys) (v : Bool) : (s.setContext k v).n1 = s.n1 := rfl
@[simp] theorem State.setContext_n2 (s : State) (k : Subkeys) (v : Bool) : (s.setContext k v).n2 = s.n2 := rfl
@[simp] theorem State.setContext_rnd (s : State) (k : Subkeys) (v : Bool) : (s.setContext k v).rnd = s.rnd := rfl
@[simp] theorem State.setContext_mode (s : State) (k : Subkeys) (v : Bool) : (s.setContext k v).mode = s.mode := rfl
@[simp] theorem State.setContext_fsm (s : State) (k : Subkeys) (v : Bool) : (s.setContext k v).fsm = s.fsm := rfl
@[simp] theorem State.setContext_blkOut (s : State) (k : Subkeys) (v : Bool) : (s.setContext k v).blkOut = s.blkOut := rfl
@[simp] theorem State.setContext_rspValid (s : State) (k : Subkeys) (v : Bool) : (s.setContext k v).rspValid = s.rspValid := rfl
@[simp] theorem State.setContext_rspCode (s : State) (k : Subkeys) (v : Bool) : (s.setContext k v).rspCode = s.rspCode := rfl
@[simp] theorem State.setContext_resetSeen (s : State) (k : Subkeys) (v : Bool) : (s.setContext k v).resetSeen = s.resetSeen := rfl
@[simp] theorem State.setContext_inputs (s : State) (k : Subkeys) (v : Bool) : (s.setContext k v).inputs = s.inputs := rfl

/-! `loadTransform` -/

@[simp] theorem State.loadTransform_k (s : State) (m : Mode) (b : Block) : (s.loadTransform m b).k = s.k := rfl
@[simp] theorem State.loadTransform_ctxValid (s : State) (m : Mode) (b : Block) : (s.loadTransform m b).ctxValid = s.ctxValid := rfl
@[simp] theorem State.loadTransform_n1 (s : State) (m : Mode) (b : Block) : (s.loadTransform m b).n1 = b.w0 := rfl
@[simp] theorem State.loadTransform_n2 (s : State) (m : Mode) (b : Block) : (s.loadTransform m b).n2 = b.w1 := rfl
@[simp] theorem State.loadTransform_rnd (s : State) (m : Mode) (b : Block) : (s.loadTransform m b).rnd = 0 := rfl
@[simp] theorem State.loadTransform_mode (s : State) (m : Mode) (b : Block) : (s.loadTransform m b).mode = m := rfl
@[simp] theorem State.loadTransform_fsm (s : State) (m : Mode) (b : Block) : (s.loadTransform m b).fsm = .run := rfl
@[simp] theorem State.loadTransform_blkOut (s : State) (m : Mode) (b : Block) : (s.loadTransform m b).blkOut = s.blkOut := rfl
@[simp] theorem State.loadTransform_rspValid (s : State) (m : Mode) (b : Block) : (s.loadTransform m b).rspValid = s.rspValid := rfl
@[simp] theorem State.loadTransform_rspCode (s : State) (m : Mode) (b : Block) : (s.loadTransform m b).rspCode = s.rspCode := rfl
@[simp] theorem State.loadTransform_resetSeen (s : State) (m : Mode) (b : Block) : (s.loadTransform m b).resetSeen = s.resetSeen := rfl
@[simp] theorem State.loadTransform_inputs (s : State) (m : Mode) (b : Block) : (s.loadTransform m b).inputs = s.inputs := rfl

/-! `runRound` -/

@[simp] theorem State.runRound_k (sb : SBox) (s : State) : (s.runRound sb).k = s.k := rfl
@[simp] theorem State.runRound_ctxValid (sb : SBox) (s : State) : (s.runRound sb).ctxValid = s.ctxValid := rfl
@[simp] theorem State.runRound_n1 (sb : SBox) (s : State) : (s.runRound sb).n1 = (roundStep sb s.k s.mode s.rnd.toNat s.work).w0 := rfl
@[simp] theorem State.runRound_n2 (sb : SBox) (s : State) : (s.runRound sb).n2 = (roundStep sb s.k s.mode s.rnd.toNat s.work).w1 := rfl
@[simp] theorem State.runRound_rnd (sb : SBox) (s : State) : (s.runRound sb).rnd = s.rnd := rfl
@[simp] theorem State.runRound_mode (sb : SBox) (s : State) : (s.runRound sb).mode = s.mode := rfl
@[simp] theorem State.runRound_fsm (sb : SBox) (s : State) : (s.runRound sb).fsm = s.fsm := rfl
@[simp] theorem State.runRound_blkOut (sb : SBox) (s : State) : (s.runRound sb).blkOut = s.blkOut := rfl
@[simp] theorem State.runRound_rspValid (sb : SBox) (s : State) : (s.runRound sb).rspValid = s.rspValid := rfl
@[simp] theorem State.runRound_rspCode (sb : SBox) (s : State) : (s.runRound sb).rspCode = s.rspCode := rfl
@[simp] theorem State.runRound_resetSeen (sb : SBox) (s : State) : (s.runRound sb).resetSeen = s.resetSeen := rfl
@[simp] theorem State.runRound_inputs (sb : SBox) (s : State) : (s.runRound sb).inputs = s.inputs := rfl

/-! `complete` -/

@[simp] theorem State.complete_k (s : State) : (s.complete).k = s.k := rfl
@[simp] theorem State.complete_ctxValid (s : State) : (s.complete).ctxValid = s.ctxValid := rfl
@[simp] theorem State.complete_n1 (s : State) : (s.complete).n1 = s.n1 := rfl
@[simp] theorem State.complete_n2 (s : State) : (s.complete).n2 = s.n2 := rfl
@[simp] theorem State.complete_rnd (s : State) : (s.complete).rnd = 0 := rfl
@[simp] theorem State.complete_mode (s : State) : (s.complete).mode = s.mode := rfl
@[simp] theorem State.complete_fsm (s : State) : (s.complete).fsm = .idle := rfl
@[simp] theorem State.complete_blkOut (s : State) : (s.complete).blkOut = bitsOfBlock (swapOut s.work) := rfl
@[simp] theorem State.complete_rspValid (s : State) : (s.complete).rspValid = true := rfl
@[simp] theorem State.complete_rspCode (s : State) : (s.complete).rspCode = rspOk := rfl
@[simp] theorem State.complete_resetSeen (s : State) : (s.complete).resetSeen = s.resetSeen := rfl
@[simp] theorem State.complete_inputs (s : State) : (s.complete).inputs = s.inputs := rfl

/-! `nextRound` -/

@[simp] theorem State.nextRound_k (s : State) : s.nextRound.k = s.k := rfl
@[simp] theorem State.nextRound_ctxValid (s : State) : s.nextRound.ctxValid = s.ctxValid := rfl
@[simp] theorem State.nextRound_n1 (s : State) : s.nextRound.n1 = s.n1 := rfl
@[simp] theorem State.nextRound_n2 (s : State) : s.nextRound.n2 = s.n2 := rfl
@[simp] theorem State.nextRound_rnd (s : State) : s.nextRound.rnd = s.rnd + 1#5 := rfl
@[simp] theorem State.nextRound_mode (s : State) : s.nextRound.mode = s.mode := rfl
@[simp] theorem State.nextRound_fsm (s : State) : s.nextRound.fsm = s.fsm := rfl
@[simp] theorem State.nextRound_blkOut (s : State) : s.nextRound.blkOut = s.blkOut := rfl
@[simp] theorem State.nextRound_rspValid (s : State) : s.nextRound.rspValid = s.rspValid := rfl
@[simp] theorem State.nextRound_rspCode (s : State) : s.nextRound.rspCode = s.rspCode := rfl
@[simp] theorem State.nextRound_resetSeen (s : State) : s.nextRound.resetSeen = s.resetSeen := rfl
@[simp] theorem State.nextRound_inputs (s : State) : s.nextRound.inputs = s.inputs := rfl

/-! `nextCycle` -/

@[simp] theorem State.nextCycle_k (s : State) : (s.nextCycle).k = s.k := rfl
@[simp] theorem State.nextCycle_ctxValid (s : State) : (s.nextCycle).ctxValid = s.ctxValid := rfl
@[simp] theorem State.nextCycle_n1 (s : State) : (s.nextCycle).n1 = s.n1 := rfl
@[simp] theorem State.nextCycle_n2 (s : State) : (s.nextCycle).n2 = s.n2 := rfl
@[simp] theorem State.nextCycle_rnd (s : State) : (s.nextCycle).rnd = s.rnd := rfl
@[simp] theorem State.nextCycle_mode (s : State) : (s.nextCycle).mode = s.mode := rfl
@[simp] theorem State.nextCycle_fsm (s : State) : (s.nextCycle).fsm = s.fsm := rfl
@[simp] theorem State.nextCycle_blkOut (s : State) : (s.nextCycle).blkOut = s.blkOut := rfl
@[simp] theorem State.nextCycle_rspValid (s : State) : (s.nextCycle).rspValid = s.rspValid := rfl
@[simp] theorem State.nextCycle_rspCode (s : State) : (s.nextCycle).rspCode = s.rspCode := rfl
@[simp] theorem State.nextCycle_resetSeen (s : State) : (s.nextCycle).resetSeen = s.resetSeen := rfl
@[simp] theorem State.nextCycle_inputs (s : State) : (s.nextCycle).inputs = s.inputs.tail := rfl

/-! `powerUp` -/

@[simp] theorem State.powerUp_k (s : State) : (s.powerUp).k = s.k := rfl
@[simp] theorem State.powerUp_ctxValid (s : State) : (s.powerUp).ctxValid = s.ctxValid := rfl
@[simp] theorem State.powerUp_n1 (s : State) : (s.powerUp).n1 = s.n1 := rfl
@[simp] theorem State.powerUp_n2 (s : State) : (s.powerUp).n2 = s.n2 := rfl
@[simp] theorem State.powerUp_rnd (s : State) : (s.powerUp).rnd = s.rnd := rfl
@[simp] theorem State.powerUp_mode (s : State) : (s.powerUp).mode = s.mode := rfl
@[simp] theorem State.powerUp_fsm (s : State) : (s.powerUp).fsm = s.fsm := rfl
@[simp] theorem State.powerUp_blkOut (s : State) : (s.powerUp).blkOut = s.blkOut := rfl
@[simp] theorem State.powerUp_rspValid (s : State) : (s.powerUp).rspValid = s.rspValid := rfl
@[simp] theorem State.powerUp_rspCode (s : State) : (s.powerUp).rspCode = s.rspCode := rfl
@[simp] theorem State.powerUp_resetSeen (s : State) : (s.powerUp).resetSeen = false := rfl
@[simp] theorem State.powerUp_inputs (s : State) : (s.powerUp).inputs = s.inputs := rfl

/-! `resetEdge` -/

@[simp] theorem State.resetEdge_k (s : State) : (s.resetEdge).k = zeroSubkeys := rfl
@[simp] theorem State.resetEdge_ctxValid (s : State) : (s.resetEdge).ctxValid = false := rfl
@[simp] theorem State.resetEdge_n1 (s : State) : (s.resetEdge).n1 = 0 := rfl
@[simp] theorem State.resetEdge_n2 (s : State) : (s.resetEdge).n2 = 0 := rfl
@[simp] theorem State.resetEdge_rnd (s : State) : (s.resetEdge).rnd = 0 := rfl
@[simp] theorem State.resetEdge_mode (s : State) : (s.resetEdge).mode = .encrypt := rfl
@[simp] theorem State.resetEdge_fsm (s : State) : (s.resetEdge).fsm = .idle := rfl
@[simp] theorem State.resetEdge_blkOut (s : State) : (s.resetEdge).blkOut = 0 := rfl
@[simp] theorem State.resetEdge_rspValid (s : State) : (s.resetEdge).rspValid = false := rfl
@[simp] theorem State.resetEdge_rspCode (s : State) : (s.resetEdge).rspCode = 0 := rfl
@[simp] theorem State.resetEdge_resetSeen (s : State) : (s.resetEdge).resetSeen = true := rfl
@[simp] theorem State.resetEdge_inputs (s : State) : (s.resetEdge).inputs = s.inputs := rfl

/-! `idleEdge` -/

@[simp] theorem State.idleEdge_k (s : State) : (s.idleEdge).k = s.k := rfl
@[simp] theorem State.idleEdge_ctxValid (s : State) : (s.idleEdge).ctxValid = s.ctxValid := rfl
@[simp] theorem State.idleEdge_n1 (s : State) : (s.idleEdge).n1 = s.n1 := rfl
@[simp] theorem State.idleEdge_n2 (s : State) : (s.idleEdge).n2 = s.n2 := rfl
@[simp] theorem State.idleEdge_rnd (s : State) : (s.idleEdge).rnd = s.rnd := rfl
@[simp] theorem State.idleEdge_mode (s : State) : (s.idleEdge).mode = s.mode := rfl
@[simp] theorem State.idleEdge_fsm (s : State) : (s.idleEdge).fsm = s.fsm := rfl
@[simp] theorem State.idleEdge_blkOut (s : State) : (s.idleEdge).blkOut = s.blkOut := rfl
@[simp] theorem State.idleEdge_rspValid (s : State) : (s.idleEdge).rspValid = false := rfl
@[simp] theorem State.idleEdge_rspCode (s : State) : (s.idleEdge).rspCode = s.rspCode := rfl
@[simp] theorem State.idleEdge_resetSeen (s : State) : (s.idleEdge).resetSeen = s.resetSeen := rfl
@[simp] theorem State.idleEdge_inputs (s : State) : (s.idleEdge).inputs = s.inputs := rfl

/-! The words of the working pair. -/

@[simp] theorem State.work_w0 (s : State) : s.work.w0 = s.n1 := rfl
@[simp] theorem State.work_w1 (s : State) : s.work.w1 = s.n2 := rfl
@[simp] theorem swapOut_w0 (n : Block) : (swapOut n).w0 = n.w1 := rfl
@[simp] theorem swapOut_w1 (n : Block) : (swapOut n).w1 = n.w0 := rfl
@[simp] theorem State.ports_cons (s : State) (p : InPorts) (rest : List InPorts) :
    (State.mk s.k s.ctxValid s.n1 s.n2 s.rnd s.mode s.fsm s.blkOut s.rspValid s.rspCode s.resetSeen (p :: rest)).ports
      = p := rfl

end Sys2Proof.Machine
end

