-- ==== Sys2Proof/Laws/Ops.lean ====
section
/-! SUPPORT. Once for each shared operation, everything it can do: the transform's start, the RUN edge, the command edge
and the edge dispatch. Proofs cite these and unfold nothing. -/

namespace Sys2Proof.Machine

/-- What starting a transform does, with and without a context. -/
theorem startTransform_cases (s : State) (m : Mode) (blk : BlockBits) :
    (s.ctxValid = true ∧ s.startTransform m blk = (s.loadTransform m (blockOfBits blk)).endPulse) ∨
      (s.ctxValid = false ∧ s.startTransform m blk = s.respond rspNoContext) := by
  cases h : s.ctxValid
  · exact .inr ⟨rfl, by simp [State.startTransform, h]⟩
  · exact .inl ⟨rfl, by simp [State.startTransform, h]⟩

/-- What a RUN edge does, before and at round 31. -/
theorem runEdge_cases (sb : SBox) (s : State) :
    (s.rnd = 31#5 ∧ s.runEdge sb = (s.runRound sb).complete) ∨
      (s.rnd ≠ 31#5 ∧ s.runEdge sb = (s.runRound sb).endPulse.nextRound) := by
  by_cases h : s.rnd = 31#5
  · exact .inl ⟨h, if_pos h⟩
  · exact .inr ⟨h, if_neg h⟩

/-- What `CONSTRUCT` does at its accept edge, for a valid and an invalid length. -/
theorem acceptConstruct_cases (len : Byte) (key : KeyBits) (s : State) :
    (len = 32#8 ∧ acceptConstruct len key s = (s.setContext (keyUnpack key) true).respond rspOk) ∨
      (len ≠ 32#8 ∧ acceptConstruct len key s = (s.setContext zeroSubkeys false).respond rspInvalidKeyLength) := by
  have hv : keyLenValid len = true ↔ len = 32#8 := by
    rw [keyLenValid, decide_eq_true_eq]
    exact ⟨fun h => BitVec.eq_of_toNat_eq h, fun h => by subst h; rfl⟩
  by_cases h : len = 32#8
  · exact .inl ⟨h, if_pos (hv.mpr h)⟩
  · exact .inr ⟨h, if_neg (mt hv.mp h)⟩

/-- A command edge answers a next state only in two ways: in RUN the round, in IDLE the command's accept effect. -/
theorem commandEdge_cases {accept : State → State} {s t : State} (h : commandEdge accept s = .next t) :
    s.resetSeen = true ∧ ((s.fsm = .run ∧ t = s.runEdge Config.sbox) ∨ (s.fsm = .idle ∧ t = accept s)) := by
  unfold commandEdge at h
  split at h
  · next hr =>
    refine ⟨hr, ?_⟩
    split at h
    · next hf => cases h; exact .inr ⟨hf, rfl⟩
    · next hf => cases h; exact .inl ⟨hf, rfl⟩
  · cases h

/-- The command edge in IDLE after reset is the accept effect. -/
theorem commandEdge_idle {accept : State → State} {s : State} (hr : s.resetSeen = true) (hf : s.fsm = .idle) :
    commandEdge accept s = .next (accept s) := by
  simp [commandEdge, hr, hf]

/-- The command edge in RUN after reset is the round, whatever the command. -/
theorem commandEdge_run {accept : State → State} {s : State} (hr : s.resetSeen = true) (hf : s.fsm = .run) :
    commandEdge accept s = .next (s.runEdge Config.sbox) := by
  simp [commandEdge, hr, hf]

/-- The accept effect of each command. -/
def acceptOf : Instr → State → State
  | .nop => acceptNop
  | .construct len key => acceptConstruct len key
  | .encrypt blk => acceptEncrypt blk
  | .decrypt blk => acceptDecrypt blk

/-- Every command is the command edge with its own accept effect. -/
theorem exec_eq_commandEdge (i : Instr) (s : State) : exec i s = commandEdge (acceptOf i) s := by
  cases i <;> rfl

/-- Everything one edge can do when it answers a next state. -/
theorem edge_cases {cfg : SBoxConfig} {p : InPorts} {s t : State} (h : edge cfg p s = .next t) :
    (p.rst = true ∧ t = s.resetEdge) ∨
    (p.rst = false ∧ s.resetSeen = true ∧ s.fsm = .run ∧ t = s.runEdge cfg.sbox) ∨
    (p.rst = false ∧ s.resetSeen = true ∧ s.fsm = .idle ∧ p.cmdValid = false ∧ t = s.idleEdge) ∨
    (p.rst = false ∧ s.resetSeen = true ∧ s.fsm = .idle ∧ p.cmdValid = true ∧ t = acceptOf (portInstr p) s) := by
  unfold edge at h
  split at h
  · next hp => cases h; exact .inl ⟨hp, rfl⟩
  · next hp =>
    have hp' : p.rst = false := by simpa using hp
    split at h
    · next hr =>
      split at h
      · next hf => cases h; exact .inr (.inl ⟨hp', hr, hf, rfl⟩)
      · next hf =>
        split at h
        · next hv =>
          rw [exec_eq_commandEdge, commandEdge_idle hr hf] at h
          cases h
          exact .inr (.inr (.inr ⟨hp', hr, hf, hv, rfl⟩))
        · next hv =>
          cases h
          exact .inr (.inr (.inl ⟨hp', hr, hf, by simpa using hv, rfl⟩))
    · cases h

/-- Everything one step can do when it answers a next state: the edge of the current frame, on the state whose next
frame is current. -/
theorem step_cases {s t : State} (h : step s = .next t) :
    (s.ports.rst = true ∧ t = s.nextCycle.resetEdge) ∨
    (s.ports.rst = false ∧ s.resetSeen = true ∧ s.fsm = .run ∧ t = s.nextCycle.runEdge Config.sbox) ∨
    (s.ports.rst = false ∧ s.resetSeen = true ∧ s.fsm = .idle ∧ s.ports.cmdValid = false ∧ t = s.nextCycle.idleEdge) ∨
    (s.ports.rst = false ∧ s.resetSeen = true ∧ s.fsm = .idle ∧ s.ports.cmdValid = true ∧
      t = acceptOf (portInstr s.ports) s.nextCycle) :=
  edge_cases (cfg := Config.sboxConfig) h

end Sys2Proof.Machine
end

