-- ==== Sys2Proof/Laws/PerInstr.lean ====
section
/-! SUPPORT. The family `EncodesOp` of statements made command by command: the bundle of a command carries the command's
opcode in bits 1:0, as spec/opcode_table.json's mask 0x3 and match values say. -/

namespace Sys2Proof.Laws.EncodesOp

/-- The low two bits of a command's bundle are its row's match value. -/
def Statement (i : Instr) : Prop := i.wf = true ∧ (encode i).extractLsb' 0 2 = i.op

theorem nop : Statement .nop := ⟨rfl, bundleOp_bundleOf _ _ _ _⟩

theorem construct (len : Byte) (key : KeyBits) : Statement (.construct len key) := ⟨rfl, bundleOp_bundleOf _ _ _ _⟩

theorem encrypt (blk : BlockBits) : Statement (.encrypt blk) := ⟨rfl, bundleOp_bundleOf _ _ _ _⟩

theorem decrypt (blk : BlockBits) : Statement (.decrypt blk) := ⟨rfl, bundleOp_bundleOf _ _ _ _⟩

end Sys2Proof.Laws.EncodesOp
end

