-- ==== Sys2Proof/Laws/Pins.lean ====
section
/-! SUPPORT. What the wires of a port carry: a number exactly when every level is defined, and then its bits. -/

namespace Sys2Proof.Machine

/-- A defined level carries a bit. -/
theorem levelBit_of_defined {l : Level} (h : l ≠ .undefined) : levelBit l = some (decide (l = .high)) := by
  cases l <;> simp_all [levelBit]

/-- The wires carry a number exactly when none is undefined, and bit `i` of the number is wire `i`. -/
theorem levelsNat_cases (ls : List Level) :
    (Level.undefined ∈ ls ∧ levelsNat ls = none) ∨
      (Level.undefined ∉ ls ∧
        ∃ n, levelsNat ls = some n ∧ ∀ i, (h : i < ls.length) → n.testBit i = decide (ls[i] = .high)) := by
  induction ls with
  | nil => exact .inr ⟨by simp, 0, rfl, by simp⟩
  | cons l rest ih =>
    by_cases hl : l = .undefined
    · exact .inl ⟨by simp [hl], by simp [levelsNat, hl, levelBit]⟩
    · obtain ⟨hm, e⟩ | ⟨hm, n, e, bits⟩ := ih
      · exact .inl ⟨by simp [hm], by simp [levelsNat, e]⟩
      · refine .inr ⟨by simp [hm, Ne.symm hl], _, by rw [levelsNat, levelBit_of_defined hl, e]; rfl, fun i h => ?_⟩
        cases i with
        | zero => by_cases hh : l = .high <;> simp [hh, Nat.testBit_zero]
        | succ i =>
          rw [Nat.testBit_succ, show ((decide (l = .high)).toNat + 2 * n) / 2 = n by
            by_cases hh : l = .high <;> simp [hh]; omega]
          exact bits i (by simpa using h)

theorem levelsBits_of_undefined {n : Nat} {ls : Vector Level n} (h : Level.undefined ∈ ls.toList) :
    levelsBits n ls = none := by
  obtain ⟨_, e⟩ | ⟨hm, _⟩ := levelsNat_cases ls.toList
  · simp [levelsBits, e]
  · exact absurd h hm

/-- A port whose wires are all defined carries the bits of its wires. -/
theorem levelsBits_of_defined {n : Nat} {ls : Vector Level n} (h : Level.undefined ∉ ls.toList) :
    ∃ v, levelsBits n ls = some v ∧ ∀ i : Fin n, v.getLsbD i = decide (ls[i] = .high) := by
  obtain ⟨hm, _⟩ | ⟨_, w, e, bits⟩ := levelsNat_cases ls.toList
  · exact absurd hm h
  · refine ⟨BitVec.ofNat n w, by simp [levelsBits, e], fun i => ?_⟩
    rw [BitVec.getLsbD_ofNat, decide_eq_true i.isLt, Bool.true_and]
    exact bits i.val (by simp)

end Sys2Proof.Machine
end

