-- ==== Sys2Proof/Laws/Run.lean ====
section
/-! SUPPORT. Runs of many edges, and which command an edge accepts. -/

namespace Sys2Proof.Machine

@[simp] theorem runSteps_zero (s : State) : runSteps 0 s = .next s := rfl

/-- One edge with a next state, then the rest of the run. -/
theorem runSteps_succ_of_next {s t : State} (h : step s = .next t) (n : Nat) : runSteps (n + 1) s = runSteps n t := by
  have h' : Sys2Proof.core.step s = .next t := h
  simp only [runSteps, Host.Core.run, h']
  rfl

/-- A run that stops at its first edge with a fault. -/
theorem runSteps_succ_of_fault {s : State} {r : Fault} (h : step s = .fault r) (n : Nat) :
    runSteps (n + 1) s = .fault r := by
  have h' : Sys2Proof.core.step s = .fault r := h
  simp only [runSteps, Host.Core.run, h']
  rfl

/-- A run in two parts. -/
theorem runSteps_add {m : Nat} {s t : State} (h : runSteps m s = .next t) (n : Nat) :
    runSteps (m + n) s = runSteps n t := by
  induction m generalizing s with
  | zero => cases h; rw [Nat.zero_add]
  | succ m ih =>
    rw [Nat.succ_add]
    cases e : step s with
    | next u =>
      rw [runSteps_succ_of_next e] at h
      rw [Nat.succ_eq_add_one, runSteps_succ_of_next e]
      exact ih h
    | fault r => rw [runSteps_succ_of_fault e] at h; cases h
    | refused r =>
      have h' : Sys2Proof.core.step s = .refused r := e
      simp only [runSteps, Host.Core.run, h'] at h
      cases h

/-- The command an edge accepts is the one on its ports, in IDLE after reset, with `rst = 0` and `cmd_valid = 1`. -/
theorem acceptedCommand_eq_some {s : State} {i : Instr} :
    acceptedCommand s = some i ↔
      s.resetSeen = true ∧ s.fsm = .idle ∧ s.ports.rst = false ∧ s.ports.cmdValid = true ∧ portInstr s.ports = i := by
  cases hr : s.resetSeen <;> cases hf : s.fsm <;> cases hp : s.ports.rst <;> cases hv : s.ports.cmdValid <;>
    simp [acceptedCommand, transfers, cmdReady, hr, hf, hp, hv]

/-- While a transform runs no edge accepts a command. -/
theorem acceptedCommand_of_run {s : State} (h : s.fsm = .run) : acceptedCommand s = none := by
  simp [acceptedCommand, transfers, cmdReady, h]

/-- A frame of the list is in force when no later edge is asked about: the first frame is not a reset frame. -/
theorem ports_rst_of_quietFor {n : Nat} {s : State} (h : s.quietFor (n + 1)) : s.ports.rst = false := by
  unfold State.ports
  cases hi : s.inputs with
  | nil => rfl
  | cons p rest => exact h p (by simp [hi])

end Sys2Proof.Machine
end

