-- ==== Sys2Proof/Tests/Slice0.lean ====
section
/-! SUPPORT. The model's own tests. Every expected value is the spec's (95_test_vectors.md and the worked examples of
the rule files); the witnesses show for each statement with hypotheses a state and operands that meet them. -/

namespace Sys2Proof.Tests

open Sys2Proof.Machine

/-- The key `KS` of 95_test_vectors.md: byte `j` is `j`. -/
def keyS : KeyBits := 0x1F1E1D1C1B1A191817161514131211100F0E0D0C0B0A09080706050403020100#256

/-- The key `K8` of 95_test_vectors.md: byte `j` is `0x80 + j`. -/
def key8 : KeyBits := 0x9F9E9D9C9B9A999897969594939291908F8E8D8C8B8A89888786858483828180#256

/-- IDLE with the context of `KS`. -/
def withCtx : State := { State.reset with k := keyUnpack keyS, ctxValid := true }

/-- RUN before round `r`, with the context of `KS`. -/
def running (r : BitVec 5) (n1 n2 : Word) : State := { withCtx with fsm := .run, rnd := r, n1 := n1, n2 := n2 }

/-- The core configured with `SBOX_ID`. -/
def sboxIdConfig : SBoxConfig := { sbox := Config.sboxId, wf := Config.sboxId_wf }

/-- A reset frame. -/
def resetFrame : InPorts := { InPorts.idle with rst := true }

/-- The next state, if there is one. -/
def nextOf : Host.Outcome State Fault Refusal → Option State
  | .next s => some s
  | .fault _ => none
  | .refused _ => none

/-! ### Well-formedness: an ill-formed term for each check -/

theorem test_sbox_instantiations_wf : Config.sboxId.wf = true ∧ Config.sboxA.wf = true ∧ Config.sboxB.wf = true := by decide

theorem test_sbox_repeated_entry_refused :
    SBox.wf (Config.sboxA.set 3 #v[2, 12, 4, 1, 7, 10, 11, 6, 8, 5, 3, 15, 13, 0, 14, 2]) = false ∧
      admitSbox (Config.sboxA.set 0 (Vector.replicate 16 0)) = none ∧
      admitSbox Config.sboxId = some sboxIdConfig := ⟨by decide, by decide, rfl⟩

/-- 40_table_rom.md R107: no program runs on a core whose S-box row repeats an entry. -/
theorem test_program_on_bad_sbox_refused :
    runProgram (Config.sboxA.set 0 (Vector.replicate 16 0)) Config.orderLE [.nop] 5 State.reset = .error .sboxRow := rfl

theorem test_byte_order_refused :
    Config.orderLE.wf = true ∧ BlockByteOrder.wf #v[0, 1, 2, 3, 4, 5, 6, 6] = false := by decide

theorem test_bundle_too_wide :
    bundleFits 0x40000000000000000000000000000000000000000000000000000000000000000000000000000000000 = false ∧
      bundleFits 0x3FFFFFFFFFFFFFFFFFFFFFFFFFFFFFFFFFFFFFFFFFFFFFFFFFFFFFFFFFFFFFFFFFFFFFFFFFFFFFFFFFF = true := by
  decide

theorem test_op_too_wide : opFits 4 = false ∧ opFits 3 = true ∧ decodeOp 4 = .error .opTooWide := by
  exact ⟨by decide, by decide, rfl⟩

theorem test_script_lines_ill_formed :
    ScriptLine.wf (.construct 256 (List.replicate 32 0)) = false ∧ ScriptLine.wf (.construct 32 (List.replicate 31 0)) = false ∧
      ScriptLine.wf (.key (List.replicate 33 0)) = false ∧ ScriptLine.wf (.encb (List.replicate 7 0)) = false ∧
      ScriptLine.wf (.decb (List.replicate 9 0)) = false ∧ ScriptLine.wf (.expect 3 none none) = false ∧
      ScriptLine.wf (.construct 255 (List.replicate 32 0)) = true := by decide

/-! ### Decoding: bundles of 95_test_vectors.md section 7, and words by bit positions (30_encoding.md R70) -/

theorem test_decode_nop : decodeTableWord 8 0x0 = some .nop := by decide

/-- `op` = 01, `len` = 32 in bits 9:2, key byte 0 = AB in bits 17:10. -/
theorem test_decode_construct_bits : decodeTableWord 24 0b10101011_00100000_01 = some (.construct 32#8 0xAB#256) := by decide

theorem test_decode_construct :
    decodeTableWord 336 0x000000000000000007C7874706C6864605C5854504C4844403C3834302C2824201C1814100C08040081 =
      some (.construct 32#8 keyS) := by decide

theorem test_decode_encrypt :
    decodeTableWord 336 0x226AF37BC048D159C000000000000000000000000000000000000000000000000000000000000000002 =
      some (.encrypt 0x89ABCDEF01234567#64) := by decide

theorem test_decode_decrypt :
    decodeTableWord 336 0x122A6881B3EB71FFC000000000000000000000000000000000000000000000000000000000000000003 =
      some (.decrypt 0x48A9A206CFADC7FF#64) := by decide

theorem test_decode_wide_refused :
    decodeTableWord 336 0x40000000000000000000000000000000000000000000000000000000000000000000000000000000001 = none := by
  decide

/-- The bundle of the last line of 95_test_vectors.md section 7's table. -/
theorem test_encode_decrypt :
    encode (.decrypt 0x9322B4ED32B149E8#64) =
      0x24C8AD3B4CAC527A0000000000000000000000000000000000000000000000000000000000000000003#330 := by decide

theorem test_fetch_word_runs_first :
    nextOf (step (State.reset.withFetchWord 336 0x00000000000000000000000000000000000000000000000000000000000000000000000000000000081)) =
      some { State.reset with ctxValid := true, rspValid := true } := by decide

/-! ### Tables, F, KSEL, transforms -/

/-- 95_test_vectors.md T-a, T-b, T-c. -/
theorem test_table_entries :
    tHi Config.sboxId 0x5A#8 = 0x5A#8 ∧ tHi Config.sboxA 0x12#8 = 0x48#8 ∧ tHi Config.sboxA 0xFF#8 = 0x7A#8 ∧
      tMid Config.sboxA 0x00#8 = 0xA7#8 ∧ tLow Config.sboxA 0x00#8 = 0x2C#8 ∧ tLsb Config.sboxA 0xFF#8 = 0x17#8 ∧
      tHi Config.sboxB 0x00#8 = 0x1D#8 ∧ tLsb Config.sboxB 0x00#8 = 0xE4#8 := by decide

/-- 95_test_vectors.md section 3. -/
theorem test_round_function :
    roundF Config.sboxId 0x80000000#32 = 0x00000400#32 ∧ roundF Config.sboxId 0x01234567#32 = 0x1A2B3809#32 ∧
      roundF Config.sboxA 0x01234567#32 = 0x9B940F0C#32 ∧ roundF Config.sboxA 0xDEADBEEF#32 = 0x67AB3CAE#32 ∧
      roundF Config.sboxB 0xFEDCBA98#32 = 0x0661B616#32 := by decide

/-- 95_test_vectors.md section 4: `KS` and `K8`, no byte sign-extended. -/
theorem test_key_unpack :
    keyUnpack keyS = #v[0x03020100, 0x07060504, 0x0B0A0908, 0x0F0E0D0C, 0x13121110, 0x17161514, 0x1B1A1918, 0x1F1E1D1C] ∧
      (keyUnpack key8)[7] = 0x9F9E9D9C#32 := by decide

/-- 95_test_vectors.md X5, X6: `Encrypt64` and `Decrypt64` under the three instantiations. -/
theorem test_encrypt64 :
    encrypt64 Config.sboxId (keyUnpack keyS) ⟨0x01234567, 0x89ABCDEF⟩ = ⟨0xCFADC7FF, 0x48A9A206⟩ ∧
      encrypt64 Config.sboxA (keyUnpack keyS) ⟨0x01234567, 0x89ABCDEF⟩ = ⟨0x32B149E8, 0x9322B4ED⟩ := by decide

theorem test_decrypt64 :
    decrypt64 Config.sboxB (keyUnpack keyS) ⟨0xFFFFFFFF, 0xFFFFFFFF⟩ = ⟨0x233ADB56, 0x0D8093B2⟩ := by decide

/-! ### One edge each (95_test_vectors.md section 6) -/

/-- V10. -/
theorem test_nop_ends_pulse :
    nextOf (exec .nop { withCtx with rspValid := true, rspCode := 0b01#2 }) = some { withCtx with rspCode := 0b01#2 } := by
  decide

/-- V2. -/
theorem test_construct_31_destroys_context :
    nextOf (exec (.construct 31#8 (BitVec.allOnes 256)) withCtx) =
      some { State.reset with rspValid := true, rspCode := 0b01#2 } := by decide

/-- V5. -/
theorem test_construct_32_replaces_context :
    nextOf (exec (.construct 32#8 (BitVec.allOnes 256)) withCtx) =
      some { withCtx with k := Vector.replicate 8 0xFFFFFFFF#32, rspValid := true } := by decide

/-- V11, the accept edge. -/
theorem test_encrypt_starts :
    nextOf (exec (.encrypt 0x89ABCDEF01234567#64) { withCtx with rspValid := true }) =
      some (running 0#5 0x01234567#32 0x89ABCDEF#32) := by decide

/-- V8. -/
theorem test_encrypt_without_context :
    nextOf (exec (.encrypt 0x89ABCDEF01234567#64) State.reset) =
      some { State.reset with rspValid := true, rspCode := 0b10#2 } := by decide

theorem test_decrypt_starts :
    nextOf (exec (.decrypt 0x48A9A206CFADC7FF#64) withCtx) =
      some { running 0#5 0xCFADC7FF#32 0x48A9A206#32 with mode := .decrypt } := by decide

/-- V9. -/
theorem test_decrypt_without_context :
    nextOf (exec (.decrypt 0#64) State.reset) = some { State.reset with rspValid := true, rspCode := 0b10#2 } := by decide

/-- V11, the edge of round 0, while the host presents another command. -/
theorem test_round_0_ignores_command :
    nextOf (stepWith sboxIdConfig { running 0#5 0x01234567#32 0x89ABCDEF#32 with inputs := [framePresenting 1] }) =
      some (running 1#5 0x01234567#32 0xA398F5CE#32) := by decide

/-- V11, the completion edge. -/
theorem test_completion :
    nextOf (stepWith sboxIdConfig (running 31#5 0x36EE5C93#32 0xCFADC7FF#32)) =
      some { withCtx with n1 := 0x48A9A206#32, n2 := 0xCFADC7FF#32, blkOut := 0x48A9A206CFADC7FF#64, rspValid := true } := by
  decide

/-- V14, V15: reset in RUN with a command presented. -/
theorem test_reset_in_run :
    nextOf (step { running 10#5 1#32 2#32 with blkOut := 3#64, inputs := [{ framePresenting 1 with rst := true }] }) =
      some State.reset := by decide

/-- An idle edge clears the pulse and holds the rest. -/
theorem test_idle_edge : nextOf (step { withCtx with rspValid := true, blkOut := 5#64 }) = some { withCtx with blkOut := 5#64 } := by
  decide

/-- 70_reset_and_hazards.md R234: an edge without reset before the first reset. -/
theorem test_use_before_reset_faults : step State.reset.powerUp = .fault .beforeFirstReset := rfl

/-! ### The host's side -/

theorem test_parse_script_line :
    parseLine "Construct LEN=31 key=000102030405060708090A0B0C0D0E0F101112131415161718191a1b1c1d1e1f # edge 2".toList =
      some (some (.construct 31 ((List.range 32).map (BitVec.ofNat 8)))) := by decide

theorem test_parse_expect :
    parseLine "EXPECT    code=OK w0=CFADC7FF w1=48A9A206   # SBOX_ID".toList =
      some (some (.expect rspOk (some 0xCFADC7FF#32) (some 0x48A9A206#32))) ∧
    parseLine "CONSTRUCT len=256 key=00".toList = none ∧ parseLine "  # comment".toList = some none := by decide

theorem test_encb_little_endian :
    expandLine Config.orderLE (.encb [0x67, 0x45, 0x23, 0x01, 0xEF, 0xCD, 0xAB, 0x89]) =
      .ok [.encrypt 0x01234567#32 0x89ABCDEF#32, .wait] := rfl

/-- 70_reset_and_hazards.md R246: a buffer of other than 8 bytes, and a key of other than 32, are refused. -/
theorem test_host_duties_refused :
    expandLine Config.orderLE (.encb [1, 2, 3, 4, 5, 6, 7]) = .error .blockBytes ∧
      expandLine Config.orderLE (.decb [1, 2, 3, 4, 5, 6, 7, 8, 9]) = .error .blockBytes ∧
      scriptActions Config.orderLE [.nop, .key (List.replicate 31 0)] = .error .keyBytes := ⟨rfl, rfl, rfl⟩

/-- 70_reset_and_hazards.md R234: a script of host actions alone reads outputs, so it faults before the first reset. -/
theorem test_script_before_reset_faults :
    runScript sboxIdConfig 1 (HostState.start [.expect rspOk none none]) State.reset.powerUp = .fault .beforeFirstReset := rfl

/-- The host presents a command only when `cmd_ready` is 1, and is owed one response for it. -/
theorem test_host_waits_for_ready :
    (HostState.start [.command (.encrypt 7#64)]).cycle (outPorts (running 3#5 0#32 0#32) false) =
      (HostState.start [.command (.encrypt 7#64)], InPorts.idle) := by decide

theorem test_run_not_ended_while_owed :
    runEnded { HostState.start [] with owed := 1 } (outPorts withCtx false) = false ∧
      runEnded { HostState.start [] with owed := 1 } (outPorts { withCtx with rspValid := true } false) = true := by decide

theorem test_undefined_pin_refused :
    samplePins ⟨.low, .undefined, Vector.replicate 2 .low, Vector.replicate 8 .low, Vector.replicate 256 .low,
      Vector.replicate 64 .low⟩ = .error .undefinedControl := rfl

/-! ### Witnesses: for each statement with hypotheses, a state and operands that meet them -/

theorem witness_reset_edge : ({ running 5#5 1#32 2#32 with inputs := [resetFrame, resetFrame] }).ports.rst = true := by decide

theorem witness_no_command_under_reset : resetFrame.rst = true ∧ { framePresenting 1 with rst := true }.rst = true := by decide

theorem witness_before_first_reset :
    State.reset.powerUp.resetSeen = false ∧ State.reset.powerUp.ports.rst = false ∧
      ({ State.reset.powerUp with inputs := [resetFrame] }).ports.rst = true := by decide

theorem witness_no_fault_once_reset : State.reset.safe = true ∧ (running 31#5 0#32 0#32).safe = true := by decide

theorem witness_boot_sequence :
    resetFrame.rst = true ∧
      ({ running 5#5 1#32 2#32 with
          inputs := [resetFrame, framePresenting (encode (.construct 32 keyS)), framePresenting (encode (.encrypt 7#64))] }).inputs =
        resetFrame :: framePresenting (encode (.construct 32 keyS)) :: framePresenting (encode (.encrypt 7#64)) :: [] ∧
      ({ State.reset with
          inputs := [resetFrame, framePresenting (encode (.construct 32 keyS)), framePresenting (encode (.decrypt 7#64))] }).inputs =
        resetFrame :: framePresenting (encode (.construct 32 keyS)) :: framePresenting (encode (.decrypt 7#64)) :: [] := by
  decide

theorem witness_edge_cases :
    State.reset.resetSeen = true ∧ ({ withCtx with inputs := [resetFrame] }).ports.rst = true ∧
      (running 31#5 0#32 0#32).fsm = .run ∧ ({ withCtx with inputs := [framePresenting 3] }).ports.cmdValid = true ∧
      withCtx.ports.cmdValid = false := by decide

theorem witness_step_runs_decoded :
    ({ withCtx with inputs := [framePresenting 2] }).inputs = framePresenting 2 :: [] ∧ withCtx.ready ∧
      (framePresenting 2).rst = false ∧ (framePresenting 2).cmdValid = true ∧
      portBundle (framePresenting 2) = BitVec.ofNat 330 2 ∧ decodeTableWord 8 2 = some (.encrypt 0) ∧
      (Instr.encrypt 0).wf = true := by decide

theorem witness_transfer :
    State.reset.resetSeen = true ∧ transfers State.reset (framePresenting 0) = true ∧
      transfers State.reset InPorts.idle = false ∧ transfers State.reset resetFrame = false ∧
      transfers (running 0#5 0#32 0#32) (framePresenting 0) = false := by decide

theorem witness_unread_fields :
    agreeOnReadFields withCtx { framePresenting 0 with keyLen := 32, blkIn := 5 } (framePresenting 0) ∧
      agreeOnReadFields withCtx { framePresenting 1 with keyLen := 31, keyIn := 5 } { framePresenting 1 with keyLen := 31 } ∧
      agreeOnReadFields withCtx { framePresenting 1 with keyLen := 32, blkIn := 5 } { framePresenting 1 with keyLen := 32 } ∧
      agreeOnReadFields State.reset { framePresenting 2 with blkIn := 5 } (framePresenting 2) ∧
      agreeOnReadFields withCtx { framePresenting 3 with keyIn := 5 } (framePresenting 3) := by
  refine ⟨?_, ?_, ?_, ?_, ?_⟩ <;> unfold agreeOnReadFields <;> decide

theorem witness_running :
    (running 0#5 0#32 0#32).resetSeen = true ∧ (running 0#5 0#32 0#32).fsm = .run ∧ (running 30#5 0#32 0#32).rnd ≠ 31#5 ∧
      (running 30#5 0#32 0#32).rnd.toNat % 2 = 0 ∧ (running 29#5 0#32 0#32).rnd.toNat % 2 = 1 ∧
      (running 29#5 0#32 0#32).ports.rst = false ∧ (running 31#5 0#32 0#32).rnd = 31#5 ∧
      (running 31#5 0#32 0#32).ports.rst = false := by decide

theorem witness_held_command :
    ({ running 31#5 0#32 0#32 with inputs := List.replicate 2 (framePresenting (encode .nop)) }).inputs =
        List.replicate (33 - (31#5).toNat) (framePresenting (encode .nop)) ++ [] ∧
      ({ running 0#5 0#32 0#32 with inputs := List.replicate 33 (framePresenting (encode (.encrypt 1))) }).inputs =
        List.replicate (33 - (0#5).toNat) (framePresenting (encode (.encrypt 1))) ++ [] := by decide

theorem witness_ready : State.reset.ready ∧ withCtx.ready ∧ withCtx.ctxValid = true ∧ State.reset.ctxValid = false := by
  decide

theorem witness_nop_like_idle :
    withCtx.ready ∧ (framePresenting 0).rst = false ∧ InPorts.idle.rst = false ∧ (framePresenting 0).cmdValid = true ∧
      portInstr (framePresenting 0) = .nop ∧ InPorts.idle.cmdValid = false := by decide

theorem witness_key_lengths : (31#8 : Byte) ≠ 32#8 ∧ (33#8 : Byte) ≠ 32#8 ∧ (0#8 : Byte) ≠ 32#8 ∧ (255#8 : Byte) ≠ 32#8 := by
  decide

theorem witness_construct_twice :
    State.reset.ready ∧ withCtx.ready ∧ (∃ t, exec (.construct 32#8 keyS) State.reset = .next t) ∧
      (∃ t, exec (.construct 32#8 keyS) withCtx = .next t) ∧ (∃ t, exec (.construct 33#8 keyS) withCtx = .next t) :=
  ⟨by decide, by decide, ⟨_, rfl⟩, ⟨_, rfl⟩, ⟨_, rfl⟩⟩

theorem witness_construct_bytes :
    constructKey (List.replicate 32 0) ≠ none ∧ constructKey (List.replicate 31 0) = none ∧
      constructKey (List.replicate 33 0) = none := by decide

theorem witness_exec_next_idle :
    withCtx.fsm = .idle ∧ (∃ t, exec (.construct 32#8 keyS) withCtx = .next t) ∧
      (∃ t, exec (.encrypt 1#64) withCtx = .next t) ∧ (∃ t, exec (.decrypt 1#64) State.reset = .next t) ∧
      (∃ t, exec .nop withCtx = .next t) :=
  ⟨rfl, ⟨_, rfl⟩, ⟨_, rfl⟩, ⟨_, rfl⟩, ⟨_, rfl⟩⟩

/-- Each kind of edge has a next state: reset, idle, every command, a round and the completion. -/
theorem witness_step_next :
    (∃ t, step { running 3#5 0#32 0#32 with inputs := [resetFrame] } = .next t) ∧ (∃ t, step State.reset = .next t) ∧
      (∃ t, step { withCtx with inputs := [framePresenting (encode (.construct 32#8 keyS))] } = .next t) ∧
      (∃ t, step { withCtx with inputs := [framePresenting (encode (.construct 33#8 keyS))] } = .next t) ∧
      (∃ t, step { withCtx with inputs := [framePresenting (encode (.encrypt 1#64))] } = .next t) ∧
      (∃ t, step { State.reset with inputs := [framePresenting (encode (.decrypt 1#64))] } = .next t) ∧
      (∃ t, step (running 30#5 0#32 0#32) = .next t) ∧ (∃ t, step (running 31#5 0#32 0#32) = .next t) :=
  ⟨⟨_, rfl⟩, ⟨_, rfl⟩, ⟨_, rfl⟩, ⟨_, rfl⟩, ⟨_, rfl⟩, ⟨_, rfl⟩, ⟨_, rfl⟩, ⟨_, rfl⟩⟩

theorem witness_round_counter : (withCtx.fsm = .idle → withCtx.rnd = 0#5) ∧ ((running 31#5 0 0).fsm = .idle → (running 31#5 0 0).rnd = 0#5) := by
  decide

/-- `RSP_VALID` 0 and 1 after an edge without reset; the reserved code held through an idle edge. -/
theorem witness_responses :
    (∃ t, step State.reset = .next t ∧ State.reset.ports.rst = false ∧ t.rspValid = false) ∧
      (∃ t, step { withCtx with inputs := [framePresenting (encode (.construct 32#8 keyS))] } = .next t ∧ t.rspValid = true) ∧
      (∃ t, step { State.reset with rspCode := 0b11#2 } = .next t ∧ t.rspCode = 0b11#2) :=
  ⟨⟨_, rfl, rfl, rfl⟩, ⟨_, rfl, rfl⟩, ⟨_, rfl, rfl⟩⟩

theorem witness_invariants_idle : State.reset.Inv ∧ State.reset.CodeLegal :=
  ⟨⟨fun _ => rfl, (by decide), fun _ => (by decide)⟩, (by unfold State.CodeLegal; decide)⟩

theorem witness_invariants_run : (running 31#5 1#32 2#32).Inv ∧ (running 31#5 1#32 2#32).CodeLegal :=
  ⟨⟨(by decide), fun _ => rfl, (by decide)⟩, (by unfold State.CodeLegal; decide)⟩

theorem witness_context_stable :
    (running 0#5 0#32 0#32).quietFor 32 ∧ 32 ≤ 32 - (running 0#5 0#32 0#32).rnd.toNat ∧
      1 ≤ 32 - (running 31#5 0#32 0#32).rnd.toNat := by decide

theorem witness_transform_runs :
    acceptedCommand { withCtx with inputs := [framePresenting (encode (.encrypt 1#64))] } = some (.encrypt 1#64) ∧
      acceptedCommand { withCtx with inputs := [framePresenting (encode (.decrypt 1#64))] } = some (.decrypt 1#64) ∧
      withCtx.ctxValid = true ∧ ({ withCtx with inputs := [framePresenting (encode (.encrypt 1#64))] }).quietFor 33 ∧
      ({ withCtx with inputs := [framePresenting (encode (.decrypt 1#64))] }).quietFor 33 := by decide

/-- Two states that differ in key, block and direction only. -/
theorem witness_same_control :
    ({ withCtx with inputs := [framePresenting (encode (.encrypt 1#64))] }).control =
      ({ withCtx with k := keyUnpack key8, n1 := 9, mode := .decrypt,
                      inputs := [framePresenting (encode (.decrypt 2#64))] }).control := by decide

theorem witness_equal_subkeys : ∀ i j : Fin 8, (Vector.replicate 8 (7#32 : Word))[i] = (Vector.replicate 8 (7#32 : Word))[j] := by
  decide

theorem witness_output_ports : withCtx.resetSeen = true ∧ (running 0#5 0#32 0#32).resetSeen = true := by decide

theorem witness_eight_bytes : ([1, 2, 3, 4, 5, 6, 7, 8] : List Byte).length = 8 := by decide

theorem witness_bundle_cases :
    bundleOp (1#330) = 0b01#2 ∧ bundleBlk (1#330) = 0 ∧ bundleOp (2#330) = 0b10#2 ∧ bundleOp (3#330) = 0b11#2 := by decide

theorem witness_no_context_kept :
    State.reset.ctxValid = false ∧ acceptedCommand State.reset = none ∧ (∃ t, step State.reset = .next t) ∧
      acceptedCommand { State.reset with inputs := [framePresenting (encode (.construct 31#8 keyS))] } =
        some (.construct 31#8 keyS) := ⟨rfl, by decide, ⟨_, rfl⟩, by decide⟩

theorem witness_host_key_len : hostKeyLen 255 = 255#8 ∧ hostKeyLen 256 = 255#8 ∧ hostKeyLen 288 = 255#8 ∧ hostKeyLen 32 = 32#8 := by
  decide

theorem witness_wf_commands :
    Instr.nop.wf = true ∧ (Instr.construct 31#8 keyS).wf = true ∧ (Instr.encrypt 1#64).wf = true ∧
      (Instr.decrypt 1#64).wf = true := by decide

/-- Scripts with every line well formed, and with a line that is not, under an admitted and a refused byte order. -/
theorem witness_scripts :
    Config.orderLE.wf = true ∧ BlockByteOrder.wf #v[0, 1, 2, 3, 4, 5, 6, 6] = false ∧
      (∀ l ∈ [ScriptLine.encb [1, 2, 3, 4, 5, 6, 7, 8], .wait], l.wf = true) ∧
      ScriptLine.wf (.encb [1, 2, 3, 4, 5, 6, 7]) = false ∧
      (∃ todo, scriptActions Config.orderLE [.encb [1, 2, 3, 4, 5, 6, 7, 8], .wait] = .ok todo) ∧
      (∃ e, scriptActions Config.orderLE [.encb [1, 2, 3, 4, 5, 6, 7]] = .error e) :=
  ⟨by decide, by decide, by decide, by decide, ⟨_, rfl⟩, ⟨_, rfl⟩⟩

theorem witness_key_line_lengths : (List.replicate 32 (0 : Byte)).length = 32 ∧ (List.replicate 31 (0 : Byte)).length ≠ 32 := by
  decide

/-- Wires at 0 with these levels on `rst` and `cmd_valid`. -/
def pinsLow (rst valid : Level) : Pins :=
  ⟨rst, valid, Vector.replicate 2 .low, Vector.replicate 8 .low, Vector.replicate 256 .low, Vector.replicate 64 .low⟩

/-- An undefined control wire. -/
theorem witness_pins_undefined_control :
    (pinsLow .undefined .low).rst = .undefined ∧ (pinsLow .low .undefined).cmdValid = .undefined ∧
      Level.undefined ∈ ({ pinsLow .low .low with cmdOp := #v[.low, .undefined] }).cmdOp.toList := by decide

/-- Defined control wires, `cmd_valid = 1`, the top wire of one operand port undefined. -/
theorem witness_pins_undefined_operand :
    ∀ p ∈ [{ pinsLow .high .high with keyLen := (Vector.replicate 8 Level.low).set 7 .undefined },
        { pinsLow .low .high with blkIn := (Vector.replicate 64 Level.low).set 63 .undefined }],
      p.rst ≠ .undefined ∧ p.cmdValid = .high ∧ Level.undefined ∉ p.cmdOp.toList ∧
        (Level.undefined ∈ p.keyLen.toList ∨ Level.undefined ∈ p.keyIn.toList ∨ Level.undefined ∈ p.blkIn.toList) := by
  decide

/-- `cmd_valid = 0` with undefined operand wires. -/
theorem witness_pins_not_valid :
    let p : Pins := { pinsLow .low .low with keyLen := Vector.replicate 8 .undefined }
    p.rst ≠ .undefined ∧ p.cmdValid = .low ∧ Level.undefined ∉ p.cmdOp.toList := by decide

/-- Wires at 0 are defined. -/
theorem undefined_not_mem_low (n : Nat) : Level.undefined ∉ (Vector.replicate n Level.low).toList := by
  intro h
  rw [Vector.toList_replicate] at h
  exact absurd (List.eq_of_mem_replicate h) (by decide)

/-- Every wire defined, `cmd_valid = 1`. -/
theorem witness_pins_valid :
    let p : Pins := { pinsLow .high .high with cmdOp := #v[.high, .low] }
    p.rst ≠ .undefined ∧ p.cmdValid = .high ∧ Level.undefined ∉ p.cmdOp.toList ∧ Level.undefined ∉ p.keyLen.toList ∧
      Level.undefined ∉ p.keyIn.toList ∧ Level.undefined ∉ p.blkIn.toList := by
  exact ⟨by decide, by decide, by decide, undefined_not_mem_low 8, undefined_not_mem_low 256, undefined_not_mem_low 64⟩

end Sys2Proof.Tests
end

/-! PROOF. The registers over every edge (10_state.md sections 1 to 3). First what each operation does to each register,
once per operation; then every kind of edge with the command it accepts; each statement is a case split over those. -/

namespace Sys2Proof.Machine

/-! ### The key's words -/

/-- Four bytes assembled little-endian are the bytes side by side. -/
theorem wordOfBytes_eq_append (b0 b1 b2 b3 : Byte) : wordOfBytes b0 b1 b2 b3 = b3 ++ b2 ++ b1 ++ b0 := by
  apply BitVec.eq_of_getLsbD_eq
  intro i hi
  simp only [wordOfBytes, BitVec.getLsbD_or, BitVec.getLsbD_shiftLeft, BitVec.getLsbD_setWidth, BitVec.getLsbD_append]
  by_cases h8 : i < 8
  · simp [h8, hi, show i < 16 by omega, show i < 24 by omega]
  by_cases h16 : i < 16
  · simp (disch := omega) [hi, h8, h16, show i - 8 < 8 by omega, show i - 8 < 32 by omega, show i < 24 by omega]
  by_cases h24 : i < 24
  · simp (disch := omega) [hi, h8, h16, h24, if_pos, if_neg, show i - 16 < 32 by omega, Nat.sub_sub]
  · simp (disch := omega) [hi, h8, h16, h24, if_neg, show i - 24 < 32 by omega, Nat.sub_sub]

/-- Four consecutive key bytes, little-endian, are 32 consecutive bits of the key. -/
theorem keyWord_eq_extractLsb' (key : KeyBits) (i : Nat) : keyWord key i = key.extractLsb' (32 * i) 32 := by
  rw [keyWord, wordOfBytes_eq_append]
  simp only [keyByte]
  rw [BitVec.extractLsb'_append_extractLsb'_eq_extractLsb' (by omega),
    BitVec.extractLsb'_append_extractLsb'_eq_extractLsb' (by omega),
    BitVec.extractLsb'_append_extractLsb'_eq_extractLsb' (by omega), show 8 * (4 * i) = 32 * i by omega]

/-- Subkey `i` is 32 wires of the key port (41_key_schedule.md R121). -/
@[simp] theorem keyUnpack_getElem (key : KeyBits) (i : Nat) (h : i < 8) :
    (keyUnpack key)[i] = key.extractLsb' (32 * i) 32 := by
  rw [← keyWord_eq_extractLsb']
  interval_cases i <;> rfl

@[simp] theorem zeroSubkeys_getElem (i : Nat) (h : i < 8) : zeroSubkeys[i] = 0#32 := by
  interval_cases i <;> rfl

/-! ### The RUN edge, register by register -/

/-- What a RUN edge leaves unchanged. -/
@[simp] theorem State.runEdge_frame (sb : SBox) (s : State) :
    (s.runEdge sb).k = s.k ∧ (s.runEdge sb).ctxValid = s.ctxValid ∧ (s.runEdge sb).mode = s.mode := by
  obtain ⟨-, e⟩ | ⟨-, e⟩ := runEdge_cases sb s <;> simp [e]

/-- Round `j` updates the first word only if `j` is odd. -/
theorem roundStep_w0 (sb : SBox) (k : Subkeys) (m : Mode) (j : Nat) (n : Block) :
    (roundStep sb k m j n).w0 = if j % 2 = 1 then n.w0 ^^^ roundF sb (n.w1 + k[ksel m j]) else n.w0 := by
  obtain h | h := Nat.mod_two_eq_zero_or_one j <;> simp [roundStep, h]

/-- Round `j` updates the second word only if `j` is even. -/
theorem roundStep_w1 (sb : SBox) (k : Subkeys) (m : Mode) (j : Nat) (n : Block) :
    (roundStep sb k m j n).w1 = if j % 2 = 0 then n.w1 ^^^ roundF sb (n.w0 + k[ksel m j]) else n.w1 := by
  obtain h | h := Nat.mod_two_eq_zero_or_one j <;> simp [roundStep, h]

@[simp] theorem State.runEdge_n1 (sb : SBox) (s : State) :
    (s.runEdge sb).n1 =
      if s.rnd.toNat % 2 = 1 then s.n1 ^^^ roundF sb (s.n2 + s.k[ksel s.mode s.rnd.toNat]) else s.n1 := by
  obtain ⟨-, e⟩ | ⟨-, e⟩ := runEdge_cases sb s <;> simp [e, roundStep_w0]

@[simp] theorem State.runEdge_n2 (sb : SBox) (s : State) :
    (s.runEdge sb).n2 =
      if s.rnd.toNat % 2 = 0 then s.n2 ^^^ roundF sb (s.n1 + s.k[ksel s.mode s.rnd.toNat]) else s.n2 := by
  obtain ⟨-, e⟩ | ⟨-, e⟩ := runEdge_cases sb s <;> simp [e, roundStep_w1]

@[simp] theorem State.runEdge_rnd (sb : SBox) (s : State) :
    (s.runEdge sb).rnd = if s.rnd = 31#5 then 0#5 else s.rnd + 1#5 := by
  obtain ⟨h, e⟩ | ⟨h, e⟩ := runEdge_cases sb s <;> simp [e, h]

@[simp] theorem State.runEdge_fsm (sb : SBox) (s : State) :
    (s.runEdge sb).fsm = if s.rnd = 31#5 then .idle else s.fsm := by
  obtain ⟨h, e⟩ | ⟨h, e⟩ := runEdge_cases sb s <;> simp [e, h]

@[simp] theorem State.runEdge_rspValid (sb : SBox) (s : State) :
    (s.runEdge sb).rspValid = decide (s.rnd = 31#5) := by
  obtain ⟨h, e⟩ | ⟨h, e⟩ := runEdge_cases sb s <;> simp [e, h]

/-- The completion edge shows the pair it leaves in `N1` and `N2`, `N1` in the upper half (43_block_transform.md R173). -/
@[simp] theorem State.runEdge_blkOut (sb : SBox) (s : State) :
    (s.runEdge sb).blkOut = if s.rnd = 31#5 then (s.runEdge sb).n1 ++ (s.runEdge sb).n2 else s.blkOut := by
  obtain ⟨h, e⟩ | ⟨h, e⟩ := runEdge_cases sb s <;> rw [e]
  · rw [if_pos h]; rfl
  · simp [h]

/-! ### The accept effects, register by register -/

@[simp] theorem acceptOf_nop (s : State) : acceptOf .nop s = s.endPulse := rfl
@[simp] theorem acceptOf_construct (len : Byte) (key : KeyBits) (s : State) :
    acceptOf (.construct len key) s = acceptConstruct len key s := rfl
@[simp] theorem acceptOf_encrypt (blk : BlockBits) (s : State) :
    acceptOf (.encrypt blk) s = s.startTransform .encrypt blk := rfl
@[simp] theorem acceptOf_decrypt (blk : BlockBits) (s : State) :
    acceptOf (.decrypt blk) s = s.startTransform .decrypt blk := rfl

/-- What `CONSTRUCT` leaves unchanged in IDLE. -/
@[simp] theorem acceptConstruct_frame (len : Byte) (key : KeyBits) (s : State) :
    (acceptConstruct len key s).n1 = s.n1 ∧ (acceptConstruct len key s).n2 = s.n2 ∧
      (acceptConstruct len key s).rnd = s.rnd ∧ (acceptConstruct len key s).mode = s.mode ∧
      (acceptConstruct len key s).fsm = s.fsm ∧ (acceptConstruct len key s).blkOut = s.blkOut := by
  obtain ⟨-, e⟩ | ⟨-, e⟩ := acceptConstruct_cases len key s <;> simp [e]

@[simp] theorem acceptConstruct_k (len : Byte) (key : KeyBits) (s : State) :
    (acceptConstruct len key s).k = if len = 32#8 then keyUnpack key else zeroSubkeys := by
  obtain ⟨rfl, e⟩ | ⟨h, e⟩ := acceptConstruct_cases len key s
  · simp [e]
  · simp [e, h]

@[simp] theorem acceptConstruct_ctxValid (len : Byte) (key : KeyBits) (s : State) :
    (acceptConstruct len key s).ctxValid = decide (len = 32#8) := by
  obtain ⟨rfl, e⟩ | ⟨h, e⟩ := acceptConstruct_cases len key s
  · simp [e]
  · simp [e, h]

@[simp] theorem acceptConstruct_rspValid (len : Byte) (key : KeyBits) (s : State) :
    (acceptConstruct len key s).rspValid = true := by
  obtain ⟨-, e⟩ | ⟨-, e⟩ := acceptConstruct_cases len key s <;> simp [e]

/-- What the start of a transform leaves unchanged, with a context or without. -/
@[simp] theorem State.startTransform_frame (s : State) (m : Mode) (blk : BlockBits) :
    (s.startTransform m blk).k = s.k ∧ (s.startTransform m blk).ctxValid = s.ctxValid ∧
      (s.startTransform m blk).blkOut = s.blkOut := by
  obtain ⟨-, e⟩ | ⟨-, e⟩ := startTransform_cases s m blk <;> simp [e]

@[simp] theorem State.startTransform_n1 (s : State) (m : Mode) (blk : BlockBits) :
    (s.startTransform m blk).n1 = if s.ctxValid = true then blk.extractLsb' 0 32 else s.n1 := by
  obtain ⟨h, e⟩ | ⟨h, e⟩ := startTransform_cases s m blk <;> simp [e, h, blockOfBits]

@[simp] theorem State.startTransform_n2 (s : State) (m : Mode) (blk : BlockBits) :
    (s.startTransform m blk).n2 = if s.ctxValid = true then blk.extractLsb' 32 32 else s.n2 := by
  obtain ⟨h, e⟩ | ⟨h, e⟩ := startTransform_cases s m blk <;> simp [e, h, blockOfBits]

@[simp] theorem State.startTransform_rnd (s : State) (m : Mode) (blk : BlockBits) :
    (s.startTransform m blk).rnd = if s.ctxValid = true then 0#5 else s.rnd := by
  obtain ⟨h, e⟩ | ⟨h, e⟩ := startTransform_cases s m blk <;> simp [e, h]

@[simp] theorem State.startTransform_mode (s : State) (m : Mode) (blk : BlockBits) :
    (s.startTransform m blk).mode = if s.ctxValid = true then m else s.mode := by
  obtain ⟨h, e⟩ | ⟨h, e⟩ := startTransform_cases s m blk <;> simp [e, h]

@[simp] theorem State.startTransform_fsm (s : State) (m : Mode) (blk : BlockBits) :
    (s.startTransform m blk).fsm = if s.ctxValid = true then .run else s.fsm := by
  obtain ⟨h, e⟩ | ⟨h, e⟩ := startTransform_cases s m blk <;> simp [e, h]

/-- A transform's accept edge answers at once only when it has no context. -/
@[simp] theorem State.startTransform_rspValid (s : State) (m : Mode) (blk : BlockBits) :
    (s.startTransform m blk).rspValid = !s.ctxValid := by
  obtain ⟨h, e⟩ | ⟨h, e⟩ := startTransform_cases s m blk <;> simp [e, h]

/-! ### The edges with the command they accept

The host's frames decide which operation an edge does, but no operation reads or writes them, so moving on to the next
cycle commutes with it. -/

theorem State.runEdge_nextCycle (sb : SBox) (s : State) : s.nextCycle.runEdge sb = (s.runEdge sb).nextCycle :=
  (apply_ite State.nextCycle (s.rnd = 31#5) (s.runRound sb).complete (s.runRound sb).endPulse.nextRound).symm

theorem State.startTransform_nextCycle (s : State) (m : Mode) (blk : BlockBits) :
    s.nextCycle.startTransform m blk = (s.startTransform m blk).nextCycle :=
  (apply_ite State.nextCycle (s.ctxValid = true) (s.loadTransform m (blockOfBits blk)).endPulse
    (s.respond rspNoContext)).symm

theorem acceptConstruct_nextCycle (len : Byte) (key : KeyBits) (s : State) :
    acceptConstruct len key s.nextCycle = (acceptConstruct len key s).nextCycle :=
  (apply_ite State.nextCycle (keyLenValid len = true) ((s.setContext (keyUnpack key) true).respond rspOk)
    ((s.setContext zeroSubkeys false).respond rspInvalidKeyLength)).symm

theorem acceptOf_nextCycle (i : Instr) (s : State) : acceptOf i s.nextCycle = (acceptOf i s).nextCycle := by
  cases i with
  | nop => rfl
  | construct len key => exact acceptConstruct_nextCycle len key s
  | encrypt blk => exact s.startTransform_nextCycle .encrypt blk
  | decrypt blk => exact s.startTransform_nextCycle .decrypt blk

/-- Everything one step can do, in terms of the command it accepts (70_reset_and_hazards.md R236): reset, a round, an
idle edge, or the accept effect of that command. -/
theorem step_accepts_cases {s t : State} (h : step s = .next t) :
    (s.ports.rst = true ∧ acceptedCommand s = none ∧ t = s.resetEdge.nextCycle) ∨
    (s.ports.rst = false ∧ s.fsm = .run ∧ acceptedCommand s = none ∧ t = (s.runEdge Config.sbox).nextCycle) ∨
    (s.ports.rst = false ∧ s.fsm = .idle ∧ acceptedCommand s = none ∧ t = s.idleEdge.nextCycle) ∨
    (∃ i, s.ports.rst = false ∧ s.fsm = .idle ∧ acceptedCommand s = some i ∧ t = (acceptOf i s).nextCycle) := by
  obtain ⟨hr, e⟩ | ⟨hr, -, hf, e⟩ | ⟨hr, -, hf, hv, e⟩ | ⟨hr, hs, hf, hv, e⟩ := step_cases h
  · exact .inl ⟨hr, by simp [acceptedCommand, transfers, hr], e⟩
  · exact .inr (.inl ⟨hr, hf, acceptedCommand_of_run hf, e.trans (s.runEdge_nextCycle _)⟩)
  · exact .inr (.inr (.inl ⟨hr, hf, by simp [acceptedCommand, transfers, hv], e⟩))
  · exact .inr (.inr (.inr ⟨_, hr, hf, acceptedCommand_eq_some.mpr ⟨hs, hf, hr, hv, rfl⟩,
      e.trans (acceptOf_nextCycle _ s)⟩))

/-! ### The statements -/

/-- Settles O22: the accept effect of `CONSTRUCT` and the reset edge are the only operations that write the subkeys. -/
theorem subkeysWrittenOnlyByConstruct : Obligations.SubkeysWrittenOnlyByConstruct := by
  intro s t h j
  obtain ⟨hr, -, rfl⟩ | ⟨hr, -, ha, rfl⟩ | ⟨hr, -, ha, rfl⟩ | ⟨i, hr, -, ha, rfl⟩ := step_accepts_cases h
  · simp [hr]
  · simp [hr, ha]
  · simp [hr, ha]
  · cases i with
    | construct len key => by_cases hl : len = 32#8 <;> simp [hr, ha, hl]
    | _ => simp [hr, ha]

/-- Settles O23: the accept effect of `CONSTRUCT` and the reset edge are the only operations that write `CTX_VALID`. -/
theorem contextFlagWrittenOnlyByConstruct : Obligations.ContextFlagWrittenOnlyByConstruct := by
  refine ⟨fun s t h => ?_, fun _ _ => rfl⟩
  obtain ⟨hr, -, rfl⟩ | ⟨hr, -, ha, rfl⟩ | ⟨hr, -, ha, rfl⟩ | ⟨i, hr, -, ha, rfl⟩ := step_accepts_cases h
  · simp [hr]
  · simp [hr, ha]
  · simp [hr, ha]
  · cases i <;> simp [hr, ha]

/-- Settles O24: the reset edge, the round and a transform's start are the operations that write the working words. -/
theorem workingWordsLoadAndRounds : Obligations.WorkingWordsLoadAndRounds := by
  refine ⟨fun _ _ _ _ => rfl, fun s t h => ?_⟩
  obtain ⟨hr, -, rfl⟩ | ⟨hr, hf, -, rfl⟩ | ⟨hr, hf, ha, rfl⟩ | ⟨i, hr, hf, ha, rfl⟩ := step_accepts_cases h
  · simp [hr]
  · simp [hr, hf]
  · simp [hr, hf, ha]
  · cases i <;> simp [hr, hf, ha]

/-- Settles O25: outside RUN every edge keeps `RND` or clears it, and it is 0 there by hypothesis. -/
theorem roundCounterCounts : Obligations.RoundCounterCounts := by
  refine ⟨fun _ _ _ => rfl, fun s t h0 h => ?_⟩
  obtain ⟨hr, -, rfl⟩ | ⟨hr, hf, -, rfl⟩ | ⟨hr, hf, -, rfl⟩ | ⟨i, hr, hf, -, rfl⟩ := step_accepts_cases h
  · simp [hr]
  · by_cases h31 : s.rnd = 31#5 <;> simp [hr, hf, h31]
  · simp [hr, hf, h0 hf]
  · cases i <;> simp [hr, hf, h0 hf]

/-- Settles O26: a transform's start with a context and the reset edge are the only operations that write `MODE`. -/
theorem modeWrittenOnlyAtTransformAccept : Obligations.ModeWrittenOnlyAtTransformAccept := by
  refine ⟨fun _ _ _ => rfl, fun s t h => ?_⟩
  obtain ⟨hr, -, rfl⟩ | ⟨hr, -, ha, rfl⟩ | ⟨hr, -, ha, rfl⟩ | ⟨i, hr, -, ha, rfl⟩ := step_accepts_cases h
  · simp [hr]
  · simp [hr, ha]
  · simp [hr, ha]
  · cases i <;> simp [hr, ha]

/-- Settles O27: a transform's start enters RUN, reset and the completion edge leave it. -/
theorem fsmTransitions : Obligations.FsmTransitions := by
  refine ⟨rfl, fun s t h => ?_⟩
  obtain ⟨hr, ha, rfl⟩ | ⟨hr, hf, -, rfl⟩ | ⟨-, hf, ha, rfl⟩ | ⟨i, -, hf, ha, rfl⟩ := step_accepts_cases h
  · simp [hr, ha]
  · simp [hr, hf]
  · simp [hf, ha]
  · cases i <;> simp [hf, ha]

/-- Settles O28: the completion edge and the reset edge are the only ones that write `BLK_OUT`. -/
theorem resultWrittenOnlyAtCompletion : Obligations.ResultWrittenOnlyAtCompletion := by
  intro s t h
  obtain ⟨hr, -, rfl⟩ | ⟨hr, hf, -, rfl⟩ | ⟨hr, hf, -, rfl⟩ | ⟨i, hr, hf, -, rfl⟩ := step_accepts_cases h
  · simp [hr]
  · simp [hr, hf]
  · simp [hr, hf]
  · cases i <;> simp [hr, hf]

/-- Settles O29: a completion edge, `CONSTRUCT` and a transform without a context are what calls `respond`. -/
theorem rspValidOnlyAfterResponse : Obligations.RspValidOnlyAfterResponse := by
  refine ⟨rfl, fun s t h => ?_⟩
  obtain ⟨hr, -, rfl⟩ | ⟨hr, hf, ha, rfl⟩ | ⟨hr, hf, ha, rfl⟩ | ⟨i, hr, hf, ha, rfl⟩ := step_accepts_cases h
  · simp [hr]
  · simp [hr, hf, ha]
  · simp [hr, hf, ha]
  · cases i <;> simp [hr, hf, ha]

/-- Settles O32: after reset sampling answers the output ports, whose two computed bits are read off `FSM` and `rst`. -/
theorem outputPortsReadRegisters : Obligations.OutputPortsReadRegisters := by
  intro s rst hs
  refine ⟨outPorts s rst, sample_after_reset hs rst, ?_, ?_, rfl, rfl, rfl, rfl⟩
  · simp [outPorts, cmdReady]
  · simp [outPorts, busy]

end Sys2Proof.Machine

/-! PROOF. The command port (30_encoding.md sections 1 to 5): the command each opcode selects, the case an edge takes,
and the fields a command reads. The three statements turn on one split over the opcode, made in `opcodeSelectsCommand`. -/

namespace Sys2Proof.Machine

/-! ### The opcode -/

theorem opcode_cases (op : BitVec 2) : op = 0b00#2 ∨ op = 0b01#2 ∨ op = 0b10#2 ∨ op = 0b11#2 := by
  revert op; decide

/-- Settles O54: the four opcodes are all there are, and the decoder's equation for each names the command. -/
theorem opcodeSelectsCommand : Obligations.OpcodeSelectsCommand := by
  intro op len key blk
  obtain rfl | rfl | rfl | rfl := opcode_cases op
  · exact .inl ⟨rfl, decodeFields_nop len key blk⟩
  · exact .inr (.inl ⟨rfl, decodeFields_construct len key blk⟩)
  · exact .inr (.inr (.inl ⟨rfl, decodeFields_encrypt len key blk⟩))
  · exact .inr (.inr (.inr ⟨rfl, decodeFields_decrypt len key blk⟩))

/-- The meaning of the command on four ports, by its opcode. -/
theorem exec_decodeFields (op : BitVec 2) (len : Byte) (key : KeyBits) (blk : BlockBits) (s : State) :
    exec (decodeFields op len key blk) s =
      if op = 0b00#2 then execNop s
      else if op = 0b01#2 then execConstruct len key s
      else if op = 0b10#2 then execEncrypt blk s
      else execDecrypt blk s := by
  obtain ⟨rfl, e⟩ | ⟨rfl, e⟩ | ⟨rfl, e⟩ | ⟨rfl, e⟩ := opcodeSelectsCommand op len key blk <;> rw [e] <;> rfl

/-! ### The case an edge takes -/

theorem step_eq_edge (s : State) : step s = edge Config.sboxConfig s.ports s.nextCycle := rfl

/-- After reset the edge is a chain of three tests, `rst`, `FSM` and `cmd_valid`. -/
theorem edge_of_resetSeen (cfg : SBoxConfig) (p : InPorts) {s : State} (hs : s.resetSeen = true) :
    edge cfg p s =
      if p.rst = true then .next s.resetEdge
      else if s.fsm = .run then .next (s.runEdge cfg.sbox)
      else if p.cmdValid = true then exec (portInstr p) s
      else .next s.idleEdge := by
  cases hf : s.fsm <;> simp [edge, hs, hf]

/-- Settles O6: the chain of `edge_of_resetSeen`, with the presented command's meaning read off its opcode. -/
theorem edgeTakesFirstApplicableCase : Obligations.EdgeTakesFirstApplicableCase := by
  intro s hs
  rw [step_eq_edge, edge_of_resetSeen _ _ (s := s.nextCycle) hs, portInstr, exec_decodeFields]
  rfl

/-! ### The fields a command reads -/

/-- `CONSTRUCT` reads the key only when the length is valid (41_key_schedule.md R124). -/
theorem acceptConstruct_congr_key {len : Byte} {key key' : KeyBits} (s : State) (h : len = 32#8 → key = key') :
    acceptConstruct len key s = acceptConstruct len key' s := by
  obtain ⟨hl, -⟩ | ⟨hl, e⟩ := acceptConstruct_cases len key s
  · rw [h hl]
  · obtain ⟨hl', -⟩ | ⟨-, e'⟩ := acceptConstruct_cases len key' s
    · exact absurd hl' hl
    · rw [e, e']

/-- A transform reads the block only when there is a context (60_exceptions.md R203). -/
theorem startTransform_congr_blk {s : State} {blk blk' : BlockBits} (m : Mode)
    (h : s.ctxValid = true → blk = blk') : s.startTransform m blk = s.startTransform m blk' := by
  cases hc : s.ctxValid with
  | true => rw [h hc]
  | false => simp [State.startTransform, hc]

/-- Frames that agree on the read fields present commands with the same accept effect. -/
theorem acceptOf_portInstr_congr {s : State} {p q : InPorts} (h : agreeOnReadFields s p q) :
    acceptOf (portInstr p) s = acceptOf (portInstr q) s := by
  obtain ⟨-, -, hop, hconstruct, htransform⟩ := h
  rw [portInstr, portInstr, ← hop]
  obtain ho | ho | ho | ho := opcode_cases p.cmdOp <;> rw [ho]
  · rfl
  · obtain ⟨hlen, hkey⟩ := hconstruct ho
    simpa [decodeFields_construct, ← hlen] using acceptConstruct_congr_key s hkey
  · exact startTransform_congr_blk .encrypt (htransform (.inl ho))
  · exact startTransform_congr_blk .decrypt (htransform (.inr ho))

/-- A command's meaning depends on the command only through its accept effect on the current state. -/
theorem exec_congr_acceptOf {i j : Instr} {s : State} (h : acceptOf i s = acceptOf j s) : exec i s = exec j s := by
  rw [exec_eq_commandEdge, exec_eq_commandEdge, commandEdge, commandEdge, h]

/-- An edge depends on its frame only through `rst`, `cmd_valid` and the presented command's meaning. -/
theorem edge_congr {p q : InPorts} {s : State} (cfg : SBoxConfig) (hrst : p.rst = q.rst)
    (hvalid : p.cmdValid = q.cmdValid) (hexec : exec (portInstr p) s = exec (portInstr q) s) :
    edge cfg p s = edge cfg q s := by
  rw [edge, edge, hrst, hvalid, hexec]

/-- Settles O9: agreement on the read fields looks only at `CTX_VALID` of the state, so it holds in the next cycle too,
where the two frames' commands have the same accept effect. -/
theorem unreadFieldsHaveNoEffect : Obligations.UnreadFieldsHaveNoEffect := by
  intro s p q rest h
  have hnext : agreeOnReadFields { s with inputs := rest } p q := h
  obtain ⟨hrst, hvalid, -⟩ := h
  exact edge_congr Config.sboxConfig hrst hvalid (exec_congr_acceptOf (acceptOf_portInstr_congr hnext))

end Sys2Proof.Machine

/-! PROOF. The lookup tables (40_table_rom.md section 3). An entry of a table is two S-box entries side by side
(`tableGen_eq_append`), and byte `k` of a substituted word is an entry of the table of S-boxes `2k+2` and `2k+1`
(`extractLsb'_substitute_byte`); the three statements follow from these two equations. -/

namespace Sys2Proof.Machine

/-! ### Bits -/

/-- A field of a field is a field. -/
theorem extractLsb'_extractLsb'_of_add_le {w : Nat} (x : BitVec w) (start : Nat) {len start' len' : Nat}
    (h : start' + len' ≤ len) :
    (x.extractLsb' start len).extractLsb' start' len' = x.extractLsb' (start + start') len' := by
  ext j hj
  simp [show start' + j < len by omega, Nat.add_assoc]

/-- Keeping the low nibble by a mask, as the table generator does, takes bits 3:0. -/
theorem setWidth_and_fifteen (i : Byte) : (i &&& 15#8).setWidth 4 = i.extractLsb' 0 4 := by
  rw [BitVec.setWidth_and, show (15#8).setWidth 4 = BitVec.allOnes 4 from rfl, BitVec.and_allOnes,
    BitVec.setWidth_eq_extractLsb' (by decide)]

/-! ### The table generator -/

/-- An entry of a table joins an entry of the pair's first S-box and one of its second (R104). -/
theorem tableGen_eq_append (kA kB : SBoxRow) (i : Byte) :
    tableGen kA kB i = rowAt kA (i.extractLsb' 4 4) ++ rowAt kB (i.extractLsb' 0 4) := by
  rw [tableGen, BitVec.setWidth_ushiftRight_eq_extractLsb, setWidth_and_fifteen,
    ← BitVec.setWidth_append_eq_shiftLeft_setWidth_or, BitVec.setWidth_eq]

/-- The low nibble of an entry comes from the pair's second S-box. -/
theorem extractLsb'_tableGen_low (kA kB : SBoxRow) (i : Byte) :
    (tableGen kA kB i).extractLsb' 0 4 = rowAt kB (i.extractLsb' 0 4) := by
  rw [tableGen_eq_append, BitVec.extractLsb'_append_eq_right]

/-- The high nibble of an entry comes from the pair's first S-box. -/
theorem extractLsb'_tableGen_high (kA kB : SBoxRow) (i : Byte) :
    (tableGen kA kB i).extractLsb' 4 4 = rowAt kA (i.extractLsb' 4 4) := by
  rw [tableGen_eq_append, BitVec.extractLsb'_append_eq_left]

/-- Settles O46: `tableGen_eq_append` for the four pairs of R103. -/
theorem tableEntries : Obligations.TableEntries := fun _ i =>
  ⟨tableGen_eq_append _ _ i, tableGen_eq_append _ _ i, tableGen_eq_append _ _ i, tableGen_eq_append _ _ i⟩

/-! ### Permutation S-boxes -/

/-- Every row of an admitted S-box set is a permutation. -/
theorem SBox.wf_getElem {sb : SBox} (h : sb.wf = true) (s : Nat) (hs : s < 8) : sb[s].wf = true :=
  List.all_eq_true.mp h _ (Vector.mem_toList_iff.mpr (Vector.getElem_mem hs))

/-- An S-box that is a permutation sends different nibbles to different nibbles. -/
theorem rowAt_injective {row : SBoxRow} (h : row.wf = true) : Function.Injective (rowAt row) := by
  intro m n hmn
  have hnodup : row.toList.Nodup := of_decide_eq_true h
  have hlist : row.toList[m.toNat]'(by simp; omega) = row.toList[n.toNat]'(by simp; omega) := by
    simpa [rowAt] using hmn
  exact BitVec.eq_of_toNat_eq (hnodup.getElem_inj_iff.mp hlist)

/-- A byte is its two nibbles side by side. -/
theorem byte_eq_append (i : Byte) : i.extractLsb' 4 4 ++ i.extractLsb' 0 4 = i :=
  (BitVec.extractLsb'_append_extractLsb'_eq_extractLsb' rfl).trans BitVec.extractLsb'_eq_self

/-- The table of two permutations is injective, nibble by nibble, so it is a bijection on the finitely many bytes. -/
theorem tableGen_bijective {kA kB : SBoxRow} (hA : kA.wf = true) (hB : kB.wf = true) :
    Function.Bijective (tableGen kA kB) := by
  apply Function.Injective.bijective_of_finite
  intro i j h
  have high : i.extractLsb' 4 4 = j.extractLsb' 4 4 := rowAt_injective hA (by
    simpa only [extractLsb'_tableGen_high] using congrArg (BitVec.extractLsb' 4 4) h)
  have low : i.extractLsb' 0 4 = j.extractLsb' 0 4 := rowAt_injective hB (by
    simpa only [extractLsb'_tableGen_low] using congrArg (BitVec.extractLsb' 0 4) h)
  rw [← byte_eq_append i, ← byte_eq_append j, high, low]

/-- Settles O47: `tableGen_bijective` for the four pairs of R103. -/
theorem tablesAreBijections : Obligations.TablesAreBijections := fun _ h =>
  have row := SBox.wf_getElem h
  ⟨tableGen_bijective (row 7 (by decide)) (row 6 (by decide)), tableGen_bijective (row 5 (by decide)) (row 4 (by decide)),
    tableGen_bijective (row 3 (by decide)) (row 2 (by decide)), tableGen_bijective (row 1 (by decide)) (row 0 (by decide))⟩

/-! ### The substituted word -/

/-- The four looked-up bytes stand side by side in the substituted word (42_round_function.md R143). -/
theorem substitute_eq_append (sb : SBox) (x : Word) :
    substitute sb x = tHi sb (x.extractLsb' 24 8) ++ tMid sb (x.extractLsb' 16 8) ++ tLow sb (x.extractLsb' 8 8)
      ++ tLsb sb (x.extractLsb' 0 8) := by
  refine ((BitVec.setWidth_eq _).symm.trans ?_).symm
  rw [BitVec.setWidth_append_append_append_eq_shiftLeft_setWidth_or]
  rfl

/-- Byte `k` of the substituted word is looked up in the table of `SBOX[2k+2]` and `SBOX[2k+1]`. -/
theorem extractLsb'_substitute_byte (sb : SBox) (x : Word) (k : Nat) (hk : k < 4) :
    (substitute sb x).extractLsb' (8 * k) 8 = tableGen sb[2 * k + 1] sb[2 * k] (x.extractLsb' (8 * k) 8) := by
  rw [substitute_eq_append]
  match k with
  | 0 => exact BitVec.extractLsb'_append_eq_right
  | 1 =>
    rw [BitVec.extractLsb'_append_eq_of_le (by decide)]
    exact BitVec.extractLsb'_append_eq_right
  | 2 =>
    rw [BitVec.extractLsb'_append_eq_of_le (by decide), BitVec.extractLsb'_append_eq_of_le (by decide)]
    exact BitVec.extractLsb'_append_eq_right
  | 3 =>
    rw [BitVec.extractLsb'_append_eq_of_le (by decide), BitVec.extractLsb'_append_eq_of_le (by decide)]
    exact BitVec.extractLsb'_append_eq_left

/-- Settles O48: nibble `2k` is the low nibble of byte `k` and nibble `2k+1` its high one. -/
theorem substitutionActsOnNibbles : Obligations.SubstitutionActsOnNibbles := by
  refine fun sb x => ⟨substitute_eq_append sb x, fun ⟨n, hn⟩ => ?_⟩
  have nibble (y : Word) (k start : Nat) (h : start + 4 ≤ 8) :
      y.extractLsb' (8 * k + start) 4 = (y.extractLsb' (8 * k) 8).extractLsb' start 4 :=
    (extractLsb'_extractLsb'_of_add_le y (8 * k) h).symm
  obtain ⟨k, rfl | rfl⟩ := Nat.even_or_odd' n
  · rw [show 4 * (2 * k) = 8 * k + 0 by omega, nibble _ k 0 (by decide), nibble _ k 0 (by decide),
      extractLsb'_substitute_byte sb x k (by omega), extractLsb'_tableGen_low]
    rfl
  · rw [show 4 * (2 * k + 1) = 8 * k + 4 by omega, nibble _ k 4 (by decide), nibble _ k 4 (by decide),
      extractLsb'_substitute_byte sb x k (by omega), extractLsb'_tableGen_high]
    rfl

end Sys2Proof.Machine

/-! PROOF. The key schedule (spec/41_key_schedule.md): `CONSTRUCT` with a valid and with an invalid length, the subkeys
as words of the key's bytes, and the context while a transform runs. -/

namespace Sys2Proof.Machine

/-! ### Accepted commands -/

/-- After reset and in IDLE every command has its accept effect. -/
theorem exec_of_ready {s : State} (hs : s.ready) (i : Instr) : exec i s = .next (acceptOf i s) := by
  obtain ⟨hr, hf⟩ := hs
  rw [exec_eq_commandEdge, commandEdge_idle hr hf]

/-- `CONSTRUCT` with 32 bytes (41_key_schedule.md R123). -/
theorem acceptConstruct_valid (key : KeyBits) (s : State) :
    acceptConstruct 32#8 key s = (s.setContext (keyUnpack key) true).respond rspOk := if_pos rfl

/-- `CONSTRUCT` with any other length (41_key_schedule.md R124). -/
theorem acceptConstruct_invalid {len : Byte} (h : len ≠ 32#8) (key : KeyBits) (s : State) :
    acceptConstruct len key s = (s.setContext zeroSubkeys false).respond rspInvalidKeyLength := by
  obtain ⟨hl, -⟩ | ⟨-, e⟩ := acceptConstruct_cases len key s
  · exact absurd hl h
  · exact e

/-- With a context a transform starts, on the subkeys of that context. -/
theorem startTransform_runs {s : State} (hc : s.ctxValid = true) (m : Mode) (blk : BlockBits) :
    (s.startTransform m blk).fsm = .run ∧ (s.startTransform m blk).k = s.k := by
  simp [hc]

/-- Without a context a transform is answered `NO_CONTEXT` (60_exceptions.md R203). -/
theorem startTransform_of_no_context {s : State} (hc : s.ctxValid = false) (m : Mode) (blk : BlockBits) :
    s.startTransform m blk = s.respond rspNoContext := if_neg (by simp [hc])

/-! ### The edges of a running transform -/

/-- While a transform runs an edge looks at no port but `rst` (70_reset_and_hazards.md R238). -/
theorem edge_congr_of_run {s : State} (cfg : SBoxConfig) {p q : InPorts} (hf : s.fsm = .run) (hrst : p.rst = q.rst) :
    edge cfg p s = edge cfg q s := by
  simp only [edge, hrst, hf]

/-- A RUN edge does not touch the model's own fields. -/
@[simp] theorem State.runEdge_ownFields (sb : SBox) (s : State) :
    (s.runEdge sb).resetSeen = s.resetSeen ∧ (s.runEdge sb).inputs = s.inputs := by
  obtain ⟨-, e⟩ | ⟨-, e⟩ := runEdge_cases sb s <;> simp [e]

/-- While a transform runs an edge without reset does the round. -/
theorem step_of_run {s : State} (hs : s.resetSeen = true) (hf : s.fsm = .run) (hrst : s.ports.rst = false) :
    step s = .next (s.runEdge Config.sbox).nextCycle := by
  rw [step_eq_edge, edge_of_resetSeen _ _ (s := s.nextCycle) hs, ← State.runEdge_nextCycle]
  simp [hrst, hf]

/-- A host that is quiet for `n + 1` cycles is quiet for the `n` cycles after the first. -/
theorem quietFor_of_inputs_tail {n : Nat} {s t : State} (h : s.quietFor (n + 1)) (hi : t.inputs = s.inputs.tail) :
    t.quietFor n := by
  intro p hp
  cases hc : s.inputs with
  | nil => simp [hi, hc] at hp
  | cons q rest =>
    rw [hi, hc] at hp
    exact h p (hc ▸ List.mem_cons_of_mem q hp)

/-! ### The bytes of a key -/

/-- Bit `i` of byte `j` of a number made of bytes. -/
theorem bytesToNat_testBit (bytes : List Byte) (j i : Nat) (hi : i < 8) :
    (bytesToNat bytes).testBit (8 * j + i) = (bytes.getD j 0).getLsbD i := by
  induction bytes generalizing j with
  | nil => simp [bytesToNat]
  | cons b rest ih =>
    have split : bytesToNat (b :: rest) = 2 ^ 8 * bytesToNat rest + b.toNat := Nat.add_comm _ _
    rw [split, Nat.testBit_two_pow_mul_add _ b.isLt]
    cases j with
    | zero => simp [hi, BitVec.testBit_toNat]
    | succ j =>
      rw [if_neg (by omega), show 8 * (j + 1) + i - 8 = 8 * j + i by omega, ih]
      rfl

/-- Lane `j` of the key port carries byte `j` of the key, 0 beyond its end (30_encoding.md R72). -/
theorem keyByte_keyBytesToBits (bytes : List Byte) {j : Nat} (hj : j < 32) :
    keyByte (keyBytesToBits bytes) j = bytes.getD j 0 := by
  ext i hi
  simp only [keyByte, keyBytesToBits, BitVec.getElem_extractLsb', BitVec.getLsbD_ofNat]
  rw [bytesToNat_testBit bytes j i hi, ← BitVec.getLsbD_eq_getElem, decide_eq_true (by omega), Bool.true_and]

/-- A software length is presented as 32 exactly when it is 32: saturation makes no other length valid. -/
theorem hostKeyLen_eq_valid_iff (n : Nat) : hostKeyLen n = 32#8 ↔ n = 32 := by
  unfold hostKeyLen
  split
  · next h => rw [← BitVec.toNat_inj, BitVec.toNat_ofNat, Nat.mod_eq_of_lt h]; rfl
  · next h => exact ⟨fun e => absurd e (by decide), fun e => by omega⟩

/-- Subkey `i` of a key is its word `i`. -/
theorem keyUnpack_getElem_eq_keyWord (key : KeyBits) (i : Fin 8) : (keyUnpack key)[i] = keyWord key i := by
  rw [keyWord_eq_extractLsb']
  exact keyUnpack_getElem key i i.isLt

/-! ### The statements -/

/-- Settles O51: subkey `i` is word `i` of the key, which is assembled from bytes and is 32 of the key's bits. -/
theorem keyUnpackIsLittleEndian : Obligations.KeyUnpackIsLittleEndian := fun key i =>
  ⟨keyUnpack_getElem_eq_keyWord key i, keyUnpack_getElem key i i.isLt⟩

/-- Settles O13: the accept effect of `CONSTRUCT` with 32 bytes leaves the core ready with a context, so a transform
starts on it; in RUN an edge looks at no port but `rst`. -/
theorem constructLoadsValidKey : Obligations.ConstructLoadsValidKey := by
  refine ⟨decodeFields_construct, fun s key hs => ?_, fun s p q rest hf hrst => ?_, rfl⟩
  · refine ⟨_, exec_of_ready hs _, fun i => ?_, rfl, fun blk => ?_⟩
    · rw [acceptOf_construct, acceptConstruct_valid]
      exact keyUnpack_getElem key i i.isLt
    · have ready : (acceptOf (.construct 32#8 key) s).ready := hs
      have runs (m : Mode) := startTransform_runs (s := acceptOf (.construct 32#8 key) s) rfl m blk
      exact ⟨⟨_, exec_of_ready ready (.encrypt blk), runs .encrypt⟩,
        ⟨_, exec_of_ready ready (.decrypt blk), runs .decrypt⟩⟩
  · exact edge_congr_of_run (s := { s with inputs := rest }) Config.sboxConfig hf hrst

/-- Settles O14: an invalid length zeroes the context whatever the key; without one every transform is refused, and
among the operations that an edge can do only `CONSTRUCT` with 32 bytes sets `CTX_VALID`. -/
theorem constructRefusesOtherLengths : Obligations.ConstructRefusesOtherLengths := by
  refine ⟨fun s len key hs hl => ?_, fun s blk hs hc => ?_, fun s t hc hno h => ?_⟩
  · have refuses (key' : KeyBits) :
        exec (.construct len key') s = .next ((s.setContext zeroSubkeys false).respond rspInvalidKeyLength) := by
      rw [exec_of_ready hs, acceptOf_construct, acceptConstruct_invalid hl]
    exact ⟨_, refuses key, fun i => zeroSubkeys_getElem i i.isLt, rfl, refuses⟩
  · rw [exec_of_ready hs, exec_of_ready hs, acceptOf_encrypt, acceptOf_decrypt, startTransform_of_no_context hc,
      startTransform_of_no_context hc]
    exact ⟨rfl, rfl⟩
  · obtain ⟨-, -, rfl⟩ | ⟨-, -, -, rfl⟩ | ⟨-, -, -, rfl⟩ | ⟨i, -, -, ha, rfl⟩ := step_accepts_cases h
    · rfl
    · simp [hc]
    · exact hc
    · cases i with
      | construct len key =>
        have hl : len ≠ 32#8 := fun hl => hno key (hl ▸ ha)
        simp [hl]
      | _ => simp [hc]

/-- Settles O16: the length decides on both sides alike, and the lanes of the key port carry the key's bytes. -/
theorem constructRealisesTransaction : Obligations.ConstructRealisesTransaction := by
  intro s bytes hs
  refine ⟨_, exec_of_ready hs _, ?_⟩
  rw [acceptOf_construct]
  by_cases h : bytes.length = 32
  · rw [(hostKeyLen_eq_valid_iff _).mpr h, acceptConstruct_valid,
      show constructKey bytes = some (keyUnpack (keyBytesToBits bytes)) from if_pos h]
    refine ⟨h, rfl, rfl, rfl, fun i => ?_⟩
    rw [keyUnpack_getElem_eq_keyWord, keyWord]
    iterate 4 rw [keyByte_keyBytesToBits bytes (by omega)]
  · rw [acceptConstruct_invalid (mt (hostKeyLen_eq_valid_iff _).mp h),
      show constructKey bytes = none from if_neg h]
    exact ⟨h, rfl, rfl⟩

/-- Settles O35: by induction on the number of edges. Each is a RUN edge, which leaves the context alone and, unless it
is the last one, the core in RUN before the next round. -/
theorem contextStableDuringTransform : Obligations.ContextStableDuringTransform := by
  intro s n hs hf hn hq
  induction n generalizing s with
  | zero => exact ⟨s, rfl, rfl, rfl⟩
  | succ n ih =>
    obtain ⟨hk, hc, -⟩ := s.runEdge_frame Config.sbox
    have hstep := step_of_run hs hf (ports_rst_of_quietFor hq)
    rw [runSteps_succ_of_next hstep]
    by_cases h31 : s.rnd = 31#5
    · obtain rfl : n = 0 := by simp [h31] at hn; omega
      exact ⟨_, rfl, hk, hc⟩
    · have hrnd : (s.rnd + 1#5).toNat = s.rnd.toNat + 1 := by bv_omega
      obtain ⟨t, ht, htk, htc⟩ := ih (s.runEdge Config.sbox).nextCycle (by simp [hs]) (by simp [hf, h31])
        (by simp [h31, hrnd]; omega) (quietFor_of_inputs_tail hq (by simp))
      exact ⟨t, ht, htk.trans hk, htc.trans hc⟩

end Sys2Proof.Machine

/-! PROOF. The round function (spec/42_round_function.md R144, R145, R147). The rotation puts the word's low 21 bits
above its high 11 (`rotl32_eleven_eq_append`); the substitution is injective byte by byte (`substitute_injective`). -/

namespace Sys2Proof.Machine

/-! ### The rotation by 11 -/

/-- The model's shifts are the library's rotation, for every distance below the width (00_scope.md R12). -/
theorem rotl32_eq_rotateLeft (y : Word) {n : Nat} (h : n < 32) : rotl32 y n = y.rotateLeft n := by
  rw [BitVec.rotateLeft_eq_rotateLeftAux_of_lt h]
  rfl

/-- The rotation by 11 puts the low 21 bits above the high 11 (R144). -/
theorem rotl32_eleven_eq_append (y : Word) : rotl32 y 11 = y.extractLsb' 0 21 ++ y.extractLsb' 21 11 := by
  ext i hi
  rw [rotl32_eq_rotateLeft y (by decide), BitVec.getElem_rotateLeft, BitVec.getElem_append]
  by_cases h : i < 11
  · simp [h, BitVec.getLsbD_eq_getElem (x := y) (i := 21 + i) (by omega)]
  · simp [h, BitVec.getLsbD_eq_getElem (x := y) (i := i - 11) (by omega)]

/-- Bits 31:11 of the rotated word are bits 20:0 (R144). -/
theorem extractLsb'_rotl32_eleven_high (y : Word) : (rotl32 y 11).extractLsb' 11 21 = y.extractLsb' 0 21 := by
  rw [rotl32_eleven_eq_append, BitVec.extractLsb'_append_eq_left]

/-- Bits 10:0 of the rotated word are bits 31:21 (R144). -/
theorem extractLsb'_rotl32_eleven_low (y : Word) : (rotl32 y 11).extractLsb' 0 11 = y.extractLsb' 21 11 := by
  rw [rotl32_eleven_eq_append, BitVec.extractLsb'_append_eq_right]

/-- A word is its high 11 bits above its low 21. -/
theorem word_eq_append (y : Word) : y.extractLsb' 21 11 ++ y.extractLsb' 0 21 = y :=
  (BitVec.extractLsb'_append_extractLsb'_eq_extractLsb' rfl).trans BitVec.extractLsb'_eq_self

/-- The rotation by 11 loses no bit. -/
theorem rotl32_eleven_injective : Function.Injective (rotl32 · 11) := by
  intro y z h
  have low : y.extractLsb' 0 21 = z.extractLsb' 0 21 := by
    simpa only [extractLsb'_rotl32_eleven_high] using congrArg (BitVec.extractLsb' 11 21) h
  have high : y.extractLsb' 21 11 = z.extractLsb' 21 11 := by
    simpa only [extractLsb'_rotl32_eleven_low] using congrArg (BitVec.extractLsb' 0 11) h
  rw [← word_eq_append y, ← word_eq_append z, high, low]

/-! ### The substituted word -/

/-- A word is known by its four bytes. -/
theorem word_eq_of_bytes_eq {x y : Word} (h : ∀ k < 4, x.extractLsb' (8 * k) 8 = y.extractLsb' (8 * k) 8) : x = y := by
  ext i hi
  have bit := congrArg (·.getLsbD (i % 8)) (h (i / 8) (by omega))
  simpa [Nat.mod_lt, Nat.div_add_mod, BitVec.getLsbD_eq_getElem hi] using bit

/-- With permutation S-boxes each byte of the substituted word gives back the byte it was looked up by. -/
theorem substitute_injective {sb : SBox} (h : sb.wf = true) : Function.Injective (substitute sb) := by
  intro x y hxy
  refine word_eq_of_bytes_eq fun k hk => ?_
  have table : Function.Bijective (tableGen sb[2 * k + 1] sb[2 * k]) :=
    tableGen_bijective (SBox.wf_getElem h _ _) (SBox.wf_getElem h _ _)
  apply table.injective
  rw [← extractLsb'_substitute_byte sb x k hk, hxy, extractLsb'_substitute_byte sb y k hk]

/-! ### The statements -/

/-- Settles O49: the bit ranges of the rotated word, and the library's rotation of the four looked-up bytes joined. -/
theorem roundFunctionInFull : Obligations.RoundFunctionInFull := by
  refine ⟨fun y => ⟨extractLsb'_rotl32_eleven_high y, extractLsb'_rotl32_eleven_low y⟩, fun sb x => ?_⟩
  rw [← substitute_eq_append]
  exact rotl32_eq_rotateLeft _ (by decide)

/-- Settles O50: `F` is two injective maps one after the other, and there are finitely many words. -/
theorem roundFunctionIsBijection : Obligations.RoundFunctionIsBijection := fun _ h =>
  (rotl32_eleven_injective.comp (substitute_injective h)).bijective_of_finite

end Sys2Proof.Machine

/-! PROOF. The block transform (spec/43_block_transform.md). First the cipher: a round undoes itself, and seen through
the output swap the decrypt rounds are the encrypt rounds backwards. Then the core: `State.BeforeRound` says that the
first `r` rounds of a transform are done, and a RUN edge takes it from `r` to `r + 1`. -/

namespace Sys2Proof.Machine

/-! ### Subkey selection -/

/-- The decrypt order is the encrypt order backwards (R165). -/
theorem ksel_decrypt_eq_ksel_encrypt : ∀ j < 32, ksel .decrypt j = ksel .encrypt (31 - j) := by decide

/-- The last round uses `K[0]` in both modes (R173). -/
theorem ksel_last (m : Mode) : ksel m 31 = 0 := by cases m <;> rfl

/-- Settles O42: the two orders are two lists of 32 numbers, and their mirror is `ksel_decrypt_eq_ksel_encrypt`. -/
theorem subkeyOrders : Obligations.SubkeyOrders :=
  ⟨by decide, by decide, ksel_decrypt_eq_ksel_encrypt⟩

/-! ### One round -/

theorem roundStep_of_even (sb : SBox) (k : Subkeys) (m : Mode) {j : Nat} (h : j % 2 = 0) (n : Block) :
    roundStep sb k m j n = { n with w1 := n.w1 ^^^ roundF sb (n.w0 + k[ksel m j]) } := if_pos h

theorem roundStep_of_odd (sb : SBox) (k : Subkeys) (m : Mode) {j : Nat} (h : j % 2 = 1) (n : Block) :
    roundStep sb k m j n = { n with w0 := n.w0 ^^^ roundF sb (n.w1 + k[ksel m j]) } := if_neg (by omega)

/-- A round undoes itself: it XORs one word with a value that depends on the other word only (R169). -/
@[simp] theorem roundStep_roundStep (sb : SBox) (k : Subkeys) (m : Mode) (j : Nat) (n : Block) :
    roundStep sb k m j (roundStep sb k m j n) = n := by
  obtain h | h := Nat.mod_two_eq_zero_or_one j
  · simp [roundStep_of_even _ _ _ h]
  · simp [roundStep_of_odd _ _ _ h]

@[simp] theorem swapOut_swapOut (n : Block) : swapOut (swapOut n) = n := rfl

/-- Decrypt round `j` on the swapped pair is encrypt round `31 - j` on the pair: the subkey is the same, and the rounds'
parities differ as the words do. -/
theorem roundStep_decrypt_swapOut (sb : SBox) (k : Subkeys) {j : Nat} (hj : j < 32) (n : Block) :
    roundStep sb k .decrypt j (swapOut n) = swapOut (roundStep sb k .encrypt (31 - j) n) := by
  obtain h | h := Nat.mod_two_eq_zero_or_one j
  · have mirror : (31 - j) % 2 = 1 := by omega
    simp only [roundStep_of_even _ _ _ h, roundStep_of_odd _ _ _ mirror, ksel_decrypt_eq_ksel_encrypt j hj]
    rfl
  · have mirror : (31 - j) % 2 = 0 := by omega
    simp only [roundStep_of_odd _ _ _ h, roundStep_of_even _ _ _ mirror, ksel_decrypt_eq_ksel_encrypt j hj]
    rfl

/-- With equal subkeys the mode makes no difference to a round. -/
theorem roundStep_congr_mode (sb : SBox) {k : Subkeys} (hk : ∀ i j : Fin 8, k[i] = k[j]) (m m' : Mode) (j : Nat)
    (n : Block) : roundStep sb k m j n = roundStep sb k m' j n := by
  rw [roundStep, roundStep, hk (ksel m j) (ksel m' j)]

/-! ### Many rounds -/

/-- `count` decrypt rounds undo the last `count` of 32 encrypt rounds. -/
theorem rounds_decrypt_swapOut (sb : SBox) (k : Subkeys) (b : Block) {count : Nat} (h : count ≤ 32) :
    rounds sb k .decrypt count (swapOut (rounds sb k .encrypt 32 b)) =
      swapOut (rounds sb k .encrypt (32 - count) b) := by
  induction count with
  | zero => rfl
  | succ count ih =>
    have last : rounds sb k .encrypt (32 - count) b =
        roundStep sb k .encrypt (31 - count) (rounds sb k .encrypt (31 - count) b) := by
      rw [show 32 - count = 31 - count + 1 by omega, rounds]
    rw [rounds, ih (by omega), roundStep_decrypt_swapOut sb k (by omega), last, roundStep_roundStep,
      Nat.add_sub_add_right 31 1 count]

/-- Settles O44: 32 decrypt rounds undo all encrypt rounds, and the two output swaps cancel. -/
theorem decryptInvertsEncrypt : Obligations.DecryptInvertsEncrypt := fun sb k b =>
  congrArg swapOut (rounds_decrypt_swapOut sb k b (Nat.le_refl 32))

theorem rounds_congr_mode (sb : SBox) {k : Subkeys} (hk : ∀ i j : Fin 8, k[i] = k[j]) (m m' : Mode) (count : Nat)
    (b : Block) : rounds sb k m count b = rounds sb k m' count b := by
  induction count with
  | zero => rfl
  | succ count ih => rw [rounds, rounds, ih, roundStep_congr_mode sb hk m m']

/-- Settles O45: the transforms differ in the mode of their rounds only. -/
theorem equalSubkeysMakeTransformsEqual : Obligations.EqualSubkeysMakeTransformsEqual := fun sb _ b hk =>
  congrArg swapOut (rounds_congr_mode sb hk .encrypt .decrypt Config.rounds b)

/-- The rounds in order, as a loop over their indices (R160). -/
theorem rounds_eq_foldl (sb : SBox) (k : Subkeys) (m : Mode) (count : Nat) (b : Block) :
    rounds sb k m count b = (List.range count).foldl (fun n j => roundStep sb k m j n) b := by
  induction count with
  | zero => rfl
  | succ count ih => rw [rounds, ih, List.range_succ, List.foldl_append]; rfl

/-- The document's pair `(n1, n2)` as a block. -/
def blockOfPair (n : Word × Word) : Block := { w0 := n.1, w1 := n.2 }

/-- Settles O43: the loop over pairs is the loop over blocks, because each round of it is `roundStep`. -/
theorem transformsAreTheSpecLoop : Obligations.TransformsAreTheSpecLoop := by
  intro sb k w0 w1 m out
  have loop : rounds sb k m 32 { w0 := w0, w1 := w1 } = blockOfPair out := by
    rw [rounds_eq_foldl]
    refine List.foldl_hom blockOfPair (init := (w0, w1)) fun n j => ?_
    obtain h | h := Nat.mod_two_eq_zero_or_one j
    · rw [roundStep_of_even _ _ _ h, if_pos h]
      rfl
    · rw [roundStep_of_odd _ _ _ h, if_neg (by omega)]
      rfl
  constructor <;> rintro rfl <;> exact congrArg swapOut loop

/-! ### One RUN edge -/

/-- The round of an even `RND` writes `N2` only (R162). -/
theorem State.runRound_of_even (sb : SBox) {s : State} (h : s.rnd.toNat % 2 = 0) :
    s.runRound sb = { s with n2 := s.n2 ^^^ roundF sb (s.n1 + s.k[ksel s.mode s.rnd.toNat]) } := by
  rw [State.runRound, roundStep_of_even _ _ _ h]
  rfl

/-- The round of an odd `RND` writes `N1` only (R162). -/
theorem State.runRound_of_odd (sb : SBox) {s : State} (h : s.rnd.toNat % 2 = 1) :
    s.runRound sb = { s with n1 := s.n1 ^^^ roundF sb (s.n2 + s.k[ksel s.mode s.rnd.toNat]) } := by
  rw [State.runRound, roundStep_of_odd _ _ _ h]
  rfl

theorem State.runEdge_of_ne_last (sb : SBox) {s : State} (h : s.rnd ≠ 31#5) :
    s.runEdge sb = (s.runRound sb).endPulse.nextRound := if_neg h

theorem State.runEdge_of_last (sb : SBox) {s : State} (h : s.rnd = 31#5) :
    s.runEdge sb = (s.runRound sb).complete := if_pos h

/-- Settles O36: the RUN edge before round 31 is the round, which writes one word by its parity, then `RND + 1`. -/
theorem runEdgeDoesOneRound : Obligations.RunEdgeDoesOneRound := by
  intro s hs hrst hf hrnd
  refine ⟨_, step_of_run hs hf hrst, fun heven => ?_, fun hodd => ?_⟩
  · rw [State.runEdge_of_ne_last _ hrnd, State.runRound_of_even _ heven]
    rfl
  · rw [State.runEdge_of_ne_last _ hrnd, State.runRound_of_odd _ hodd]
    rfl

/-- Settles O37: round 31 is odd, so it writes `N1`, and the completion shows the pair swapped. -/
theorem completionEdgeGivesResult : Obligations.CompletionEdgeGivesResult := by
  refine ⟨ksel_last .encrypt, ksel_last .decrypt, fun s hs hrst hf hrnd => ?_⟩
  refine ⟨_, _, rfl, step_of_run hs hf hrst, ?_, ?_⟩
  · have h31 : s.rnd.toNat = 31 := by rw [hrnd]; rfl
    simp only [State.runEdge_of_last _ hrnd, State.runRound_of_odd _ (show s.rnd.toNat % 2 = 1 by rw [h31]), h31]
    rfl
  · simp [sampleCmdReady, cmdReady, hs, hrnd]

/-! ### `NOP` -/

/-- The edge of a ready core at which the host presents nothing is the idle edge. -/
theorem step_of_ready_of_no_command {s : State} (hs : s.ready) (hrst : s.ports.rst = false)
    (hv : s.ports.cmdValid = false) : step s = .next s.nextCycle.idleEdge := by
  obtain ⟨hr, hf⟩ := hs
  rw [step_eq_edge, edge_of_resetSeen _ _ (s := s.nextCycle) hr]
  simp [hrst, hf, hv]

/-- The edge that accepts a command has that command's accept effect. -/
theorem step_of_accepted {s : State} {i : Instr} (h : acceptedCommand s = some i) :
    step s = .next (acceptOf i s).nextCycle := by
  obtain ⟨hr, hf, hrst, hv, rfl⟩ := acceptedCommand_eq_some.mp h
  rw [step_eq_edge, edge_of_resetSeen _ _ (s := s.nextCycle) hr, exec_of_ready (s := s.nextCycle) ⟨hr, hf⟩,
    acceptOf_nextCycle]
  simp [hrst, hf, hv]

/-- Settles O12: the accept effect of `NOP` is the idle edge. -/
theorem nopClearsOnlyRspValid : Obligations.NopClearsOnlyRspValid := by
  refine ⟨decodeFields_nop, fun s hs => exec_of_ready hs .nop, fun s p q rest hs hp hq hpv hnop hqv => ?_⟩
  obtain ⟨hr, hf⟩ := hs
  have accepted : acceptedCommand { s with inputs := p :: rest } = some .nop :=
    acceptedCommand_eq_some.mpr ⟨hr, hf, hp, hpv, hnop⟩
  rw [step_of_accepted accepted, step_of_ready_of_no_command (s := { s with inputs := q :: rest }) ⟨hr, hf⟩ hq hqv]
  rfl

/-! ### A whole transform -/

/-- The core runs the transform of block `b` in mode `m` under subkeys `k`, and its first `r` rounds are done. -/
structure State.BeforeRound (s : State) (r : Nat) (k : Subkeys) (m : Mode) (b : Block) : Prop where
  isReset : s.resetSeen = true
  running : s.fsm = .run
  silent : s.rspValid = false
  round : s.rnd.toNat = r
  hasContext : s.ctxValid = true
  subkeys : s.k = k
  direction : s.mode = m
  roundsDone : s.work = rounds Config.sbox k m r b

/-- A RUN edge does one round on the working pair, whether or not it is the last. -/
@[simp] theorem State.runEdge_work (sb : SBox) (s : State) :
    (s.runEdge sb).work = roundStep sb s.k s.mode s.rnd.toNat s.work := by
  obtain ⟨-, e⟩ | ⟨-, e⟩ := runEdge_cases sb s <;> rw [e] <;> rfl

@[simp] theorem State.nextCycle_work (s : State) : s.nextCycle.work = s.work := rfl

@[simp] theorem State.startTransform_inputs (s : State) (m : Mode) (blk : BlockBits) :
    (s.startTransform m blk).inputs = s.inputs := by
  obtain ⟨-, e⟩ | ⟨-, e⟩ := startTransform_cases s m blk <;> simp [e]

/-- With a context the start of a transform leaves the core before round 0. -/
theorem startTransform_beforeRound {s : State} (hs : s.resetSeen = true) (hc : s.ctxValid = true) (m : Mode)
    (blk : BlockBits) : (s.startTransform m blk).nextCycle.BeforeRound 0 s.k m (blockOfBits blk) := by
  have e : s.startTransform m blk = (s.loadTransform m (blockOfBits blk)).endPulse := if_pos hc
  rw [e]
  exact ⟨hs, rfl, rfl, rfl, hc, rfl, rfl, rfl⟩

section
variable {s : State} {r : Nat} {k : Subkeys} {m : Mode} {b : Block}

/-- A RUN edge before round 31 does one round and stays in RUN. -/
theorem State.BeforeRound.runEdge (h : s.BeforeRound r k m b) (hr : r < 31) :
    (s.runEdge Config.sbox).nextCycle.BeforeRound (r + 1) k m b := by
  obtain ⟨hs, hf, -, hrnd, hc, rfl, rfl, hwork⟩ := h
  have notLast : s.rnd ≠ 31#5 := by bv_omega
  have next : (s.rnd + 1#5).toNat = r + 1 := by bv_omega
  constructor <;> simp [hs, hf, hc, notLast, next, hrnd, hwork, rounds]

/-- `n` edges of a quiet host do `n` rounds, if they do not reach the end of round 31. -/
theorem State.BeforeRound.runSteps (h : s.BeforeRound r k m b) {n q : Nat} (hn : r + n < 32)
    (hq : s.quietFor (n + q)) :
    ∃ t, runSteps n s = .next t ∧ t.BeforeRound (r + n) k m b ∧ t.quietFor q := by
  induction n generalizing s r with
  | zero => exact ⟨s, rfl, h, Nat.zero_add q ▸ hq⟩
  | succ n ih =>
    rw [Nat.add_right_comm] at hq
    rw [runSteps_succ_of_next (step_of_run h.isReset h.running (ports_rst_of_quietFor hq)),
      show r + (n + 1) = r + 1 + n by omega]
    exact ih (h.runEdge (by omega)) (by omega) (quietFor_of_inputs_tail hq (by simp))

/-- The edge of round 31 answers `OK` and shows the swapped pair, which is the transform's result. -/
theorem State.BeforeRound.completes (h : s.BeforeRound 31 k m b) :
    s.runEdge Config.sbox = (s.runRound Config.sbox).complete ∧
      (s.runEdge Config.sbox).blkOut = bitsOfBlock (swapOut (rounds Config.sbox k m Config.rounds b)) := by
  obtain ⟨-, -, -, hrnd, -, rfl, rfl, hwork⟩ := h
  have e := State.runEdge_of_last Config.sbox (s := s) (BitVec.eq_of_toNat_eq hrnd)
  refine ⟨e, ?_⟩
  have done : (s.runRound Config.sbox).work = rounds Config.sbox s.k s.mode 32 b := by
    rw [rounds, ← hwork, ← hrnd]; rfl
  rw [e, State.complete_blkOut, done, Config.rounds]

end

/-- An accepted transform with a context and a host that does not reset it: round `n` comes `n` edges after the accept
edge, and the 32nd edge after it completes (R175). -/
theorem runSteps_of_accepted_transform {s : State} {i : Instr} {m : Mode} {blk : BlockBits}
    (hi : acceptOf i s = s.startTransform m blk) (ha : acceptedCommand s = some i) (hc : s.ctxValid = true)
    (hq : s.quietFor 33) :
    (∀ n < 32, ∃ u, runSteps (n + 1) s = .next u ∧ u.BeforeRound n s.k m (blockOfBits blk)) ∧
      ∃ t, runSteps 33 s = .next t ∧ t.fsm = .idle ∧ t.rspValid = true ∧ t.rspCode = rspOk ∧ t.k = s.k ∧
        t.ctxValid = true ∧
        t.blkOut = bitsOfBlock (swapOut (rounds Config.sbox s.k m Config.rounds (blockOfBits blk))) := by
  obtain ⟨hs, -⟩ := acceptedCommand_eq_some.mp ha
  have start := startTransform_beforeRound hs hc m blk
  have quiet : (s.startTransform m blk).nextCycle.quietFor 32 := quietFor_of_inputs_tail hq (by simp)
  have run (n : Nat) (hn : n < 32) :
      ∃ u, runSteps (n + 1) s = .next u ∧ u.BeforeRound n s.k m (blockOfBits blk) ∧ u.quietFor (32 - n) := by
    rw [runSteps_succ_of_next (step_of_accepted ha), hi]
    simpa only [Nat.zero_add] using
      start.runSteps (n := n) (q := 32 - n) (by omega) ((Nat.add_sub_of_le hn.le).symm ▸ quiet)
  refine ⟨fun n hn => ?_, ?_⟩
  · obtain ⟨u, hu, before, -⟩ := run n hn
    exact ⟨u, hu, before⟩
  · obtain ⟨u, hu, before, hquiet⟩ := run 31 (by decide)
    obtain ⟨e, hout⟩ := before.completes
    have hstep := step_of_run before.isReset before.running (ports_rst_of_quietFor hquiet)
    refine ⟨_, (runSteps_add hu 1).trans (runSteps_succ_of_next hstep 0), ?_, ?_, ?_, ?_, ?_, hout⟩ <;>
      simp [e, before.subkeys, before.hasContext]

/-- Settles O38: both commands start a transform, in one mode or the other. -/
theorem transformTakesThirtyTwoEdges : Obligations.TransformTakesThirtyTwoEdges := by
  intro s i blk hi ha hc hq
  obtain ⟨m, hm⟩ : ∃ m, acceptOf i s = s.startTransform m blk := by
    obtain rfl | rfl := hi
    · exact ⟨.encrypt, rfl⟩
    · exact ⟨.decrypt, rfl⟩
  obtain ⟨runs, t, ht, hidle, hvalid, hcode, -⟩ := runSteps_of_accepted_transform hm ha hc hq
  refine ⟨fun n hn => ?_, t, ht, hidle, hvalid, hcode⟩
  obtain ⟨u, hu, before⟩ := runs n hn
  exact ⟨u, hu, before.running, before.round, before.silent⟩

end Sys2Proof.Machine

/-! PROOF. Errors (spec/60_exceptions.md section 1): once reset, every command and every edge has a next state, because
no operation clears the reset flag; and the code of a response is one of three, because the reserved one is never
answered. -/

namespace Sys2Proof.Machine

/-! ### No fault once reset -/

@[simp] theorem acceptConstruct_resetSeen (len : Byte) (key : KeyBits) (s : State) :
    (acceptConstruct len key s).resetSeen = s.resetSeen := by
  obtain ⟨-, e⟩ | ⟨-, e⟩ := acceptConstruct_cases len key s <;> simp [e]

@[simp] theorem State.startTransform_resetSeen (s : State) (m : Mode) (blk : BlockBits) :
    (s.startTransform m blk).resetSeen = s.resetSeen := by
  obtain ⟨-, e⟩ | ⟨-, e⟩ := startTransform_cases s m blk <;> simp [e]

/-- No accepted command makes the core forget its reset. -/
theorem acceptOf_resetSeen (i : Instr) (s : State) : (acceptOf i s).resetSeen = s.resetSeen := by
  cases i <;> simp

/-- After reset every command has a next state: in IDLE its accept effect, in RUN the round. -/
theorem exec_next_of_resetSeen {s : State} (hs : s.resetSeen = true) (i : Instr) :
    ∃ t, exec i s = .next t ∧ t.resetSeen = true := by
  cases hf : s.fsm with
  | idle => exact ⟨_, exec_of_ready ⟨hs, hf⟩ i, (acceptOf_resetSeen i s).trans hs⟩
  | run => exact ⟨_, (exec_eq_commandEdge i s).trans (commandEdge_run hs hf), by simp [hs]⟩

/-- After reset every edge has a next state, whatever the frame. -/
theorem edge_next_of_resetSeen (cfg : SBoxConfig) (p : InPorts) {s : State} (hs : s.resetSeen = true) :
    ∃ t, edge cfg p s = .next t ∧ t.resetSeen = true := by
  rw [edge_of_resetSeen cfg p hs]
  split
  · exact ⟨_, rfl, rfl⟩
  split
  · exact ⟨_, rfl, by simp [hs]⟩
  split
  · exact exec_next_of_resetSeen hs (portInstr p)
  · exact ⟨_, rfl, hs⟩

/-- Settles O4: moving to the next cycle keeps the reset flag, so the step is an edge after reset. -/
theorem noFaultOnceReset : Obligations.NoFaultOnceReset := fun s hs =>
  ⟨edge_next_of_resetSeen Config.sboxConfig s.ports (s := s.nextCycle) hs, exec_next_of_resetSeen hs⟩

/-! ### The response code -/

@[simp] theorem State.runEdge_rspCode (sb : SBox) (s : State) :
    (s.runEdge sb).rspCode = if s.rnd = 31#5 then rspOk else s.rspCode := by
  obtain ⟨h, e⟩ | ⟨h, e⟩ := runEdge_cases sb s <;> simp [e, h]

@[simp] theorem acceptConstruct_rspCode (len : Byte) (key : KeyBits) (s : State) :
    (acceptConstruct len key s).rspCode = if len = 32#8 then rspOk else rspInvalidKeyLength := by
  obtain ⟨rfl, e⟩ | ⟨h, e⟩ := acceptConstruct_cases len key s
  · simp [e]
  · simp [e, h]

@[simp] theorem State.startTransform_rspCode (s : State) (m : Mode) (blk : BlockBits) :
    (s.startTransform m blk).rspCode = if s.ctxValid = true then s.rspCode else rspNoContext := by
  obtain ⟨h, e⟩ | ⟨h, e⟩ := startTransform_cases s m blk <;> simp [e, h]

/-- From `s` to `t` the core gave no response and held its code, or its code is one of the three it produces
(60_exceptions.md R201 to R203). -/
def State.HoldsOrAnswers (s t : State) : Prop :=
  (t.rspValid = false ∧ t.rspCode = s.rspCode) ∨
    t.rspCode = rspOk ∨ t.rspCode = rspInvalidKeyLength ∨ t.rspCode = rspNoContext

theorem runEdge_holdsOrAnswers (sb : SBox) (s : State) : s.HoldsOrAnswers (s.runEdge sb) := by
  by_cases h : s.rnd = 31#5 <;> simp [State.HoldsOrAnswers, h]

theorem startTransform_holdsOrAnswers (s : State) (m : Mode) (blk : BlockBits) :
    s.HoldsOrAnswers (s.startTransform m blk) := by
  cases h : s.ctxValid <;> simp [State.HoldsOrAnswers, h]

theorem acceptOf_holdsOrAnswers (i : Instr) (s : State) : s.HoldsOrAnswers (acceptOf i s) := by
  cases i with
  | nop => exact .inl ⟨rfl, rfl⟩
  | construct len key => by_cases h : len = 32#8 <;> simp [State.HoldsOrAnswers, h]
  | encrypt blk => exact startTransform_holdsOrAnswers s .encrypt blk
  | decrypt blk => exact startTransform_holdsOrAnswers s .decrypt blk

/-- The reset edge's code is `OK`, and every other edge is a round, an idle edge or an accept effect. -/
theorem step_holdsOrAnswers {s t : State} (h : step s = .next t) : s.HoldsOrAnswers t := by
  obtain ⟨-, -, rfl⟩ | ⟨-, -, -, rfl⟩ | ⟨-, -, -, rfl⟩ | ⟨i, -, -, -, rfl⟩ := step_accepts_cases h
  · exact .inr (.inl rfl)
  · exact runEdge_holdsOrAnswers Config.sbox s
  · exact .inl ⟨rfl, rfl⟩
  · exact acceptOf_holdsOrAnswers i s

/-- Settles O31: none of the three codes is the reserved one, so a reserved code was held. -/
theorem reservedCodeNeverWritten : Obligations.ReservedCodeNeverWritten := by
  intro s t h hcode
  obtain ⟨hvalid, held⟩ | hok | hlen | hctx := step_holdsOrAnswers h
  · exact ⟨held ▸ hcode, hvalid⟩
  · exact absurd (hok.symm.trans hcode) (by decide)
  · exact absurd (hlen.symm.trans hcode) (by decide)
  · exact absurd (hctx.symm.trans hcode) (by decide)

end Sys2Proof.Machine

/-! PROOF. Reset, the handshake and constant time (spec/70_reset_and_hazards.md). The control part of a state is a
machine of its own (`Control.step`): every edge maps it as `Control.edge` does, which sees no key, block or direction,
and R243 follows. The boot sequence and the held command are chains of single edges. -/

namespace Sys2Proof.Machine

/-! ### The control machine -/

/-- A RUN edge on the control part: completion after round 31, the next `RND` before it. -/
def Control.round (c : Control) : Control :=
  if c.rnd = 31#5 then { c with fsm := .idle, rnd := 0, rspValid := true, rspCode := rspOk }
  else { c with rnd := c.rnd + 1#5, rspValid := false }

/-- A command's accept effect on the control part, which its kind decides. -/
def Control.accept (c : Control) : CommandShape → Control
  | .nop => { c with rspValid := false }
  | .constructValid => { c with ctxValid := true, rspValid := true, rspCode := rspOk }
  | .constructInvalid => { c with ctxValid := false, rspValid := true, rspCode := rspInvalidKeyLength }
  | .transform =>
    if c.ctxValid then { c with fsm := .run, rnd := 0, rspValid := false }
    else { c with rspValid := true, rspCode := rspNoContext }

/-- An edge on the control part (30_encoding.md R79). -/
def Control.edge (p : FrameShape) (c : Control) : Except Fault Control :=
  if p.rst then .ok { State.reset.control with frames := c.frames }
  else if c.resetSeen then
    match c.fsm with
    | .run => .ok c.round
    | .idle => .ok (if p.cmdValid then c.accept p.shape else { c with rspValid := false })
  else .error .beforeFirstReset

/-- One step of the control part: the edge of its current frame, on the rest of its frames. -/
def Control.step (c : Control) : Except Fault Control :=
  { c with frames := c.frames.tail }.edge (c.frames.headD (frameShape InPorts.idle))

/-- `n` edges in a row of the control part. -/
def Control.run : Nat → Control → Except Fault Control
  | 0, c => .ok c
  | n + 1, c => c.step.bind (Control.run n)

/-- The control part of an outcome; a refusal has none. -/
def outcomeControl : Host.Outcome State Fault Refusal → Option (Except Fault Control)
  | .next s => some (.ok s.control)
  | .fault r => some (.error r)
  | .refused _ => none

/-! ### The core follows the control machine -/

@[simp] theorem State.control_fsm (s : State) : s.control.fsm = s.fsm := rfl
@[simp] theorem State.control_ctxValid (s : State) : s.control.ctxValid = s.ctxValid := rfl
@[simp] theorem State.control_resetSeen (s : State) : s.control.resetSeen = s.resetSeen := rfl
@[simp] theorem State.control_frames (s : State) : s.control.frames = s.inputs.map frameShape := rfl
@[simp] theorem frameShape_rst (p : InPorts) : (frameShape p).rst = p.rst := rfl
@[simp] theorem frameShape_cmdValid (p : InPorts) : (frameShape p).cmdValid = p.cmdValid := rfl
@[simp] theorem frameShape_shape (p : InPorts) : (frameShape p).shape = commandShape (portInstr p) := rfl

theorem State.control_runEdge (sb : SBox) (s : State) : (s.runEdge sb).control = s.control.round := by
  obtain ⟨h, e⟩ | ⟨h, e⟩ := runEdge_cases sb s <;> rw [e, Control.round]
  · exact (if_pos h).symm
  · exact (if_neg h).symm

theorem State.control_startTransform (s : State) (m : Mode) (blk : BlockBits) :
    (s.startTransform m blk).control = s.control.accept .transform := by
  obtain ⟨h, e⟩ | ⟨h, e⟩ := startTransform_cases s m blk <;> rw [e, Control.accept]
  · exact (if_pos h).symm
  · exact (if_neg (by simp [h])).symm

theorem control_acceptOf (i : Instr) (s : State) :
    (acceptOf i s).control = s.control.accept (commandShape i) := by
  cases i with
  | nop => rfl
  | construct len key =>
    obtain ⟨h, e⟩ | ⟨h, e⟩ := acceptConstruct_cases len key s
    · rw [acceptOf_construct, e, commandShape, if_pos h]; rfl
    · rw [acceptOf_construct, e, commandShape, if_neg h]; rfl
  | encrypt blk => exact s.control_startTransform .encrypt blk
  | decrypt blk => exact s.control_startTransform .decrypt blk

theorem State.control_resetEdge (s : State) :
    s.resetEdge.control = { State.reset.control with frames := s.control.frames } := rfl

theorem State.control_idleEdge (s : State) : s.idleEdge.control = { s.control with rspValid := false } := rfl

/-- An edge maps the control part as the control machine does, and faults exactly where it does. -/
theorem outcomeControl_edge (cfg : SBoxConfig) (p : InPorts) (s : State) :
    outcomeControl (edge cfg p s) = some (s.control.edge (frameShape p)) := by
  cases hr : p.rst with
  | true => simp [edge, Control.edge, outcomeControl, hr, s.control_resetEdge]
  | false =>
    cases hs : s.resetSeen with
    | false => simp [edge, Control.edge, outcomeControl, hr, hs]
    | true =>
      rw [edge_of_resetSeen cfg p hs]
      cases hf : s.fsm with
      | run => simp [Control.edge, outcomeControl, hr, hs, hf, s.control_runEdge]
      | idle =>
        rw [exec_of_ready ⟨hs, hf⟩]
        cases hv : p.cmdValid <;>
          simp [Control.edge, outcomeControl, hr, hs, hf, hv, s.control_idleEdge, control_acceptOf]

theorem State.head_frames_control (s : State) :
    s.control.frames.headD (frameShape InPorts.idle) = frameShape s.ports := by
  rw [State.control_frames, State.ports]
  cases s.inputs <;> rfl

theorem State.control_nextCycle (s : State) :
    s.nextCycle.control = { s.control with frames := s.control.frames.tail } := by
  simp [State.control]

/-- A step of the core is a step of the control machine. -/
theorem outcomeControl_step (s : State) : outcomeControl (step s) = some s.control.step := by
  rw [step_eq_edge, outcomeControl_edge, Control.step, s.head_frames_control, s.control_nextCycle]

/-- A run of the core is a run of the control machine: it never looks at a key, a block or a direction. -/
theorem outcomeControl_runSteps (n : Nat) (s : State) :
    outcomeControl (runSteps n s) = some (s.control.run n) := by
  induction n generalizing s with
  | zero => rfl
  | succ n ih =>
    have h := outcomeControl_step s
    cases e : step s with
    | next t =>
      rw [e, outcomeControl, Option.some_inj] at h
      rw [runSteps_succ_of_next e, ih t, Control.run, ← h]
      rfl
    | fault r =>
      rw [e, outcomeControl, Option.some_inj] at h
      rw [runSteps_succ_of_fault e, Control.run, ← h]
      rfl
    | refused r => rw [e] at h; cases h

/-- Outcomes with one and the same control part, or the same fault, agree as R243 asks. -/
theorem sameControl_of_outcomeControl {a b : Host.Outcome State Fault Refusal} {c : Except Fault Control}
    (ha : outcomeControl a = some c) (hb : outcomeControl b = some c) : sameControl a b := by
  have hab := ha.trans hb.symm
  cases a with
  | next s =>
    cases b with
    | next t => exact Except.ok.inj (Option.some.inj hab)
    | fault r => cases hab
    | refused r => cases hab
  | fault r =>
    cases b with
    | next t => cases hab
    | fault r' => exact Except.error.inj (Option.some.inj hab)
    | refused r' => cases hab
  | refused r => cases ha

/-- Settles O41: both runs have the control part of the control machine's run from their common control part. -/
theorem controlIndependentOfKeyAndBlock : Obligations.ControlIndependentOfKeyAndBlock := fun s t h n =>
  sameControl_of_outcomeControl (outcomeControl_runSteps n s) (h ▸ outcomeControl_runSteps n t)

/-! ### Reset -/

/-- A reset edge has a next state from any registers, reset before or not (R231). -/
theorem step_of_rst {s : State} (h : s.ports.rst = true) : step s = .next s.nextCycle.resetEdge := if_pos h

/-- Settles O1: the reset edge writes every register, and a second one writes the same values. -/
theorem resetEdgeSetsEveryRegister : Obligations.ResetEdgeSetsEveryRegister := fun _ h =>
  ⟨_, step_of_rst h, fun i => zeroSubkeys_getElem i i.isLt, rfl, rfl, rfl, rfl, rfl, rfl, rfl, rfl, rfl,
    fun h' => ⟨_, step_of_rst h', rfl⟩⟩

/-- Settles O2: a reset edge looks at no other port. -/
theorem noCommandUnderReset : Obligations.NoCommandUnderReset := fun s p q rest hp hq =>
  ⟨rfl, by simp [transfers, hp],
    (step_of_rst (s := { s with inputs := p :: rest }) hp).trans
      (step_of_rst (s := { s with inputs := q :: rest }) hq).symm⟩

/-! ### The handshake -/

/-- A transfer happens in IDLE only, without reset and with `cmd_valid` (R236). -/
theorem transfers_eq_true_iff {s : State} {p : InPorts} :
    transfers s p = true ↔ p.rst = false ∧ p.cmdValid = true ∧ s.fsm = .idle := by
  cases hr : p.rst <;> simp [transfers, cmdReady, hr]

/-- The step of an edge that accepts a command is that command's meaning in the next cycle. -/
theorem step_eq_exec_of_accepted {s : State} {i : Instr} (h : acceptedCommand s = some i) :
    step s = exec i s.nextCycle := by
  obtain ⟨hs, hf, -⟩ := acceptedCommand_eq_some.mp h
  rw [step_of_accepted h, exec_of_ready (s := s.nextCycle) ⟨hs, hf⟩, acceptOf_nextCycle]

/-- An edge that transfers nothing looks at `rst` and `cmd_valid` only. -/
theorem edge_congr_of_not_transfers (cfg : SBoxConfig) {s : State} {p q : InPorts} (ht : transfers s p = false)
    (hrst : p.rst = q.rst) (hvalid : p.cmdValid = q.cmdValid) : edge cfg p s = edge cfg q s := by
  cases hf : s.fsm with
  | run => exact edge_congr_of_run cfg hf hrst
  | idle =>
    cases hr : p.rst with
    | true => simp [edge, ← hrst, hr]
    | false =>
      have hv : p.cmdValid = false := by simpa [transfers, cmdReady, hr, hf] using ht
      simp [edge, ← hrst, ← hvalid, hv]

/-- Settles O8: a transfer is an accept edge, and an edge without one does not look at the command. -/
theorem transferExactlyWhenValidAndReady : Obligations.TransferExactlyWhenValidAndReady := by
  intro s p q rest hs
  refine ⟨?_, fun ht => ?_, fun ht hrst hvalid => ?_⟩
  · rw [transfers_eq_true_iff]
    cases hr : p.rst <;> simp [sampleCmdReady, cmdReady, hs]
  · obtain ⟨hr, hv, hf⟩ := transfers_eq_true_iff.mp ht
    exact step_eq_exec_of_accepted (s := { s with inputs := p :: rest })
      (acceptedCommand_eq_some.mpr ⟨hs, hf, hr, hv, rfl⟩)
  · exact edge_congr_of_not_transfers Config.sboxConfig (s := { s with inputs := rest }) ht hrst hvalid

/-! ### A presented command -/

/-- The frame that presents a command's bundle carries that command. -/
@[simp] theorem portInstr_framePresenting_encode (i : Instr) : portInstr (framePresenting (encode i)) = i := by
  rw [portInstr, framePresenting, encode]
  simp only [bundleOp_bundleOf, bundleLen_bundleOf, bundleKey_bundleOf, bundleBlk_bundleOf]
  cases i <;> rfl

/-- A ready core accepts the command in the current frame. -/
theorem acceptedCommand_of_presented {s : State} {i : Instr} {rest : List InPorts} (hs : s.ready)
    (hi : s.inputs = framePresenting (encode i) :: rest) : acceptedCommand s = some i := by
  have hp : s.ports = framePresenting (encode i) := by rw [State.ports, hi]
  obtain ⟨hr, hf⟩ := hs
  rw [acceptedCommand_eq_some, hp]
  exact ⟨hr, hf, rfl, rfl, portInstr_framePresenting_encode i⟩

/-- Both transforms start alike, in one mode or the other. -/
theorem acceptOf_transform {i : Instr} {blk : BlockBits} (hi : i = .encrypt blk ∨ i = .decrypt blk) (s : State) :
    ∃ m, acceptOf i s = s.startTransform m blk := by
  obtain rfl | rfl := hi
  · exact ⟨.encrypt, rfl⟩
  · exact ⟨.decrypt, rfl⟩

/-- A ready core answers a presented `CONSTRUCT` with 32 bytes by `OK`, and is ready with a context. -/
theorem step_of_presented_construct {s : State} {key : KeyBits} {rest : List InPorts} (hs : s.ready)
    (hi : s.inputs = framePresenting (encode (.construct 32 key)) :: rest) :
    ∃ t, step s = .next t ∧ t.ready ∧ t.ctxValid = true ∧ t.rspValid = true ∧ t.rspCode = rspOk ∧
      t.inputs = rest := by
  refine ⟨_, step_of_accepted (acceptedCommand_of_presented hs hi), ?_⟩
  rw [acceptOf_construct, show (32 : Byte) = 32#8 from rfl, acceptConstruct_valid]
  exact ⟨hs, rfl, rfl, rfl, congrArg List.tail hi⟩

/-- A ready core with a context starts a presented transform. -/
theorem step_of_presented_transform {s : State} {i : Instr} {blk : BlockBits} {rest : List InPorts} (hs : s.ready)
    (hc : s.ctxValid = true) (ht : i = .encrypt blk ∨ i = .decrypt blk)
    (hi : s.inputs = framePresenting (encode i) :: rest) :
    ∃ t, step s = .next t ∧ t.fsm = .run ∧ t.rnd = 0#5 ∧ t.inputs = rest := by
  refine ⟨_, step_of_accepted (acceptedCommand_of_presented hs hi), ?_⟩
  obtain ⟨m, hm⟩ := acceptOf_transform ht s
  simp [hm, hc, hi]

/-- Settles O5: the reset edge makes the core ready, `CONSTRUCT` leaves it ready with a context, and then the transform
starts. -/
theorem bootSequenceStartsTransform : Obligations.BootSequenceStartsTransform := by
  intro s key i blk p rest hp hi hin
  have hports : s.powerUp.ports = p := by rw [State.ports, State.powerUp_inputs, hin]
  have hreset : step s.powerUp = .next s.powerUp.nextCycle.resetEdge := step_of_rst (hports ▸ hp)
  obtain ⟨t, hconstruct, htready, hctx, hvalid, hcode, htin⟩ :=
    step_of_presented_construct (s := s.powerUp.nextCycle.resetEdge) ⟨rfl, rfl⟩ (congrArg List.tail hin)
  obtain ⟨u, htransform, hrun, hrnd, huin⟩ := step_of_presented_transform htready hctx hi htin
  have two : runSteps 2 s.powerUp = .next t :=
    (runSteps_succ_of_next hreset 1).trans (runSteps_succ_of_next hconstruct 0)
  have three : runSteps 3 s.powerUp = .next u := (runSteps_add two 1).trans (runSteps_succ_of_next htransform 0)
  exact ⟨t, u, two, hvalid, hcode, hctx, three, hrun, hrnd, huin⟩

/-! ### A held command -/

/-- The rest of a transform of a quiet host: after the edge of round 31 the core is ready and answers. -/
theorem runSteps_to_completion {s : State} {n : Nat} (hs : s.resetSeen = true) (hf : s.fsm = .run)
    (hn : s.rnd.toNat + n = 31) (hq : s.quietFor (n + 1)) :
    ∃ t, runSteps (n + 1) s = .next t ∧ t.ready ∧ t.rspValid = true ∧ t.inputs = s.inputs.drop (n + 1) := by
  induction n generalizing s with
  | zero =>
    have h31 : s.rnd = 31#5 := BitVec.eq_of_toNat_eq hn
    have hstep := step_of_run hs hf (ports_rst_of_quietFor hq)
    exact ⟨_, runSteps_succ_of_next hstep 0, ⟨by simp [hs], by simp [h31]⟩, by simp [h31], by simp⟩
  | succ n ih =>
    have notLast : s.rnd ≠ 31#5 := by bv_omega
    have next : (s.rnd + 1#5).toNat = s.rnd.toNat + 1 := by bv_omega
    rw [runSteps_succ_of_next (step_of_run hs hf (ports_rst_of_quietFor hq))]
    obtain ⟨t, ht, hready, hvalid, hin⟩ := ih (s := (s.runEdge Config.sbox).nextCycle) (by simp [hs])
      (by simp [hf, notLast]) (by simp [notLast, next]; omega) (quietFor_of_inputs_tail hq (by simp))
    exact ⟨t, ht, hready, hvalid, by simp [hin]⟩

/-- Settles O11: the frames of the held command do not reset, and one of them is left when the core is ready. -/
theorem heldCommandAcceptedAfterTransform : Obligations.HeldCommandAcceptedAfterTransform := by
  intro s i rest hs hf hin
  obtain ⟨n, hn⟩ : ∃ n, s.rnd.toNat + n = 31 := ⟨31 - s.rnd.toNat, by bv_omega⟩
  have hframes : s.inputs =
      List.replicate (n + 1) (framePresenting (encode i)) ++ framePresenting (encode i) :: rest := by
    rw [hin, show 33 - s.rnd.toNat = n + 1 + 1 by omega, List.replicate_succ' (n := n + 1), List.append_assoc]
    rfl
  have quiet : s.quietFor (n + 1) := by
    intro p hp
    simp only [hframes, List.take_left' List.length_replicate] at hp
    rw [List.eq_of_mem_replicate hp]
    rfl
  obtain ⟨t, ht, hready, hvalid, hleft⟩ := runSteps_to_completion hs hf hn quiet
  rw [hframes, List.drop_left' List.length_replicate] at hleft
  rw [show 32 - s.rnd.toNat = n + 1 by omega]
  refine ⟨t, ht, hready.right, hvalid, ?_⟩
  rw [step_eq_exec_of_accepted (acceptedCommand_of_presented hready hleft), State.nextCycle, hleft]
  rfl

end Sys2Proof.Machine

/-! PROOF. The results of the edges: a whole transform leaves the cipher's value (43_block_transform.md section 4), every
edge keeps the register invariants (10_state.md R33), and each response code has its causes (60_exceptions.md section 1). -/

namespace Sys2Proof.Machine

/-! ### The cipher on 33 edges -/

/-- Settles O39: the 32 rounds in mode encrypt, their words exchanged at the completion edge, are `Encrypt64`. -/
theorem encryptRunYieldsEncrypt64 : Obligations.EncryptRunYieldsEncrypt64 := by
  intro s blk ha hc hq
  obtain ⟨-, t, ht, -, hvalid, hcode, hk, hctx, hout⟩ :=
    runSteps_of_accepted_transform (acceptOf_encrypt blk s) ha hc hq
  exact ⟨t, ht, hk, hctx, hvalid, hcode, hout⟩

/-- Settles O40: the 32 rounds in mode decrypt, their words exchanged at the completion edge, are `Decrypt64`. -/
theorem decryptRunYieldsDecrypt64 : Obligations.DecryptRunYieldsDecrypt64 := by
  intro s blk ha hc hq
  obtain ⟨-, t, ht, -, hvalid, hcode, hk, hctx, hout⟩ :=
    runSteps_of_accepted_transform (acceptOf_decrypt blk s) ha hc hq
  exact ⟨t, ht, hk, hctx, hvalid, hcode, hout⟩

/-! ### The register invariants, operation by operation -/

theorem State.Inv.nextCycle {s : State} (h : s.Inv) : s.nextCycle.Inv := ⟨h.idle_rnd, h.run_ctx, h.noctx_k⟩

theorem State.Inv.endPulse {s : State} (h : s.Inv) : s.endPulse.Inv := ⟨h.idle_rnd, h.run_ctx, h.noctx_k⟩

theorem State.Inv.respond {s : State} (h : s.Inv) (code : BitVec 2) : (s.respond code).Inv :=
  ⟨h.idle_rnd, h.run_ctx, h.noctx_k⟩

/-- The reset edge establishes the invariants from any registers. -/
theorem State.resetEdge_inv (s : State) : s.resetEdge.Inv :=
  ⟨fun _ => rfl, (nomatch ·), fun _ i => zeroSubkeys_getElem i i.isLt⟩

/-- A RUN edge keeps them: a running core has a context, and it becomes IDLE with `RND` 0. -/
theorem State.Inv.runEdge {s : State} (h : s.Inv) (hf : s.fsm = .run) (sb : SBox) : (s.runEdge sb).Inv := by
  have hc := h.run_ctx hf
  refine ⟨fun hidle => ?_, fun _ => by simp [hc], fun hnoctx => by simp [hc] at hnoctx⟩
  by_cases h31 : s.rnd = 31#5
  · simp [h31]
  · simp [h31, hf] at hidle

/-- A new context keeps them in IDLE, if no context comes with zero subkeys. -/
theorem State.Inv.setContext {s : State} (h : s.Inv) (hf : s.fsm = .idle) {k : Subkeys} {valid : Bool}
    (hk : valid = false → ∀ i : Fin 8, k[i] = 0) : (s.setContext k valid).Inv :=
  ⟨h.idle_rnd, fun hrun => by simp [hf] at hrun, hk⟩

/-- Loading a transform keeps them if there is a context. -/
theorem State.Inv.loadTransform {s : State} (h : s.Inv) (hc : s.ctxValid = true) (m : Mode) (b : Block) :
    (s.loadTransform m b).Inv := ⟨fun _ => rfl, fun _ => hc, h.noctx_k⟩

theorem State.Inv.startTransform {s : State} (h : s.Inv) (m : Mode) (blk : BlockBits) :
    (s.startTransform m blk).Inv := by
  obtain ⟨hc, e⟩ | ⟨-, e⟩ := startTransform_cases s m blk <;> rw [e]
  · exact (h.loadTransform hc m _).endPulse
  · exact h.respond _

theorem State.Inv.acceptConstruct {s : State} (h : s.Inv) (hf : s.fsm = .idle) (len : Byte) (key : KeyBits) :
    (acceptConstruct len key s).Inv := by
  obtain ⟨-, e⟩ | ⟨-, e⟩ := acceptConstruct_cases len key s <;> rw [e]
  · exact (h.setContext hf (by simp)).respond _
  · exact (h.setContext hf fun _ i => zeroSubkeys_getElem i i.isLt).respond _

theorem State.Inv.acceptOf {s : State} (h : s.Inv) (hf : s.fsm = .idle) (i : Instr) : (acceptOf i s).Inv := by
  cases i with
  | nop => exact h.endPulse
  | construct len key => exact h.acceptConstruct hf len key
  | encrypt blk => exact h.startTransform .encrypt blk
  | decrypt blk => exact h.startTransform .decrypt blk

theorem State.Inv.step {s t : State} (h : s.Inv) (hstep : step s = .next t) : t.Inv := by
  obtain ⟨-, -, rfl⟩ | ⟨-, hf, -, rfl⟩ | ⟨-, -, -, rfl⟩ | ⟨i, -, hf, -, rfl⟩ := step_accepts_cases hstep
  · exact s.resetEdge_inv.nextCycle
  · exact (h.runEdge hf _).nextCycle
  · exact h.endPulse.nextCycle
  · exact (h.acceptOf hf i).nextCycle

/-- Settles O33: each operation of an edge keeps R33, and no edge writes the reserved code. -/
theorem stepKeepsRegisterInvariants : Obligations.StepKeepsRegisterInvariants := by
  intro s t ⟨hinv, hcode⟩ h
  exact ⟨hinv.step h, fun reserved => hcode (reservedCodeNeverWritten s t h reserved).left⟩

/-- Settles O34: the reset state is what a reset edge makes of any state with those frames. -/
theorem resetMeetsRegisterInvariants : Obligations.ResetMeetsRegisterInvariants := fun ins =>
  ⟨State.resetEdge_inv { State.reset with inputs := ins }, by simp [State.CodeLegal, State.reset, rspReserved]⟩

/-! ### The causes of the response codes -/

/-- Settles O30: a completion edge, the two outcomes of `CONSTRUCT` and a transform without a context answer one code
each, and every other edge ends the pulse and holds the code. -/
theorem responseCodesHaveTheirCauses : Obligations.ResponseCodesHaveTheirCauses := by
  intro s t h hr
  obtain ⟨hr', -, -⟩ | ⟨-, hf, ha, rfl⟩ | ⟨-, hf, ha, rfl⟩ | ⟨i, -, hf, ha, rfl⟩ := step_accepts_cases h
  · simp [hr] at hr'
  · by_cases h31 : s.rnd = 31#5 <;> simp [hf, ha, h31, rspOk]
  · simp
  · cases i with
    | nop => simp
    | construct len key =>
      by_cases hl : len = 32#8 <;> simp [hf, ha, hl, rspOk, rspInvalidKeyLength]
    | encrypt blk => cases hc : s.ctxValid <;> simp [hf, ha, hc, rspNoContext]
    | decrypt blk => cases hc : s.ctxValid <;> simp [hf, ha, hc, rspNoContext]

end Sys2Proof.Machine

/-! PROOF. The command bundle (30_encoding.md sections 1, 2 and 4): decoding and encoding, and the step that runs the
decoded command. A bundle is its four fields side by side (`bundleOf_fields`), so each statement is about one field. -/

namespace Sys2Proof.Machine

/-! ### Decode after encode -/

theorem bundleOp_encode (i : Instr) : bundleOp (encode i) = i.op := bundleOp_bundleOf _ _ _ _

theorem bundleLen_encode (i : Instr) : bundleLen (encode i) = i.len := bundleLen_bundleOf _ _ _ _

theorem bundleKey_encode (i : Instr) : bundleKey (encode i) = i.key := bundleKey_bundleOf _ _ _ _

theorem bundleBlk_encode (i : Instr) : bundleBlk (encode i) = i.blk := bundleBlk_bundleOf _ _ _ _

theorem decodeBundle_encode (i : Instr) : decodeBundle (encode i) = i := portInstr_framePresenting_encode i

/-- Settles O52: a command's bundle carries its fields, and they select the command. -/
theorem decodeInvertsEncode : Obligations.DecodeInvertsEncode := fun i _ =>
  ⟨decodeBundle_encode i, by rw [decodeWord_toNat, decodeBundle_encode], bundleOp_encode i, bundleLen_encode i,
    bundleKey_encode i, bundleBlk_encode i⟩

/-! ### Encode after decode -/

/-- A bundle is the bundle of its own fields: they cover its 330 bits (R70). -/
theorem bundleOf_fields (b : Bundle) : bundleOf (bundleOp b) (bundleLen b) (bundleKey b) (bundleBlk b) = b := by
  simp only [bundleOf, bundleOp, bundleLen, bundleKey, bundleBlk]
  rw [BitVec.extractLsb'_append_extractLsb'_eq_extractLsb' (by omega),
    BitVec.extractLsb'_append_extractLsb'_eq_extractLsb' (by omega),
    BitVec.extractLsb'_append_extractLsb'_eq_extractLsb' (by omega), BitVec.extractLsb'_eq_self]

/-- The command of a bundle, by the bundle's `op`. -/
theorem decodeBundle_cases (b : Bundle) :
    (bundleOp b = 0b00#2 ∧ decodeBundle b = .nop) ∨
      (bundleOp b = 0b01#2 ∧ decodeBundle b = .construct (bundleLen b) (bundleKey b)) ∨
      (bundleOp b = 0b10#2 ∧ decodeBundle b = .encrypt (bundleBlk b)) ∨
      (bundleOp b = 0b11#2 ∧ decodeBundle b = .decrypt (bundleBlk b)) :=
  opcodeSelectsCommand (bundleOp b) (bundleLen b) (bundleKey b) (bundleBlk b)

theorem op_decodeBundle (b : Bundle) : (decodeBundle b).op = bundleOp b := by
  obtain ⟨ho, e⟩ | ⟨ho, e⟩ | ⟨ho, e⟩ | ⟨ho, e⟩ := decodeBundle_cases b <;> rw [ho, e] <;> rfl

theorem decodeBundle_of_construct {b : Bundle} (h : bundleOp b = 0b01#2) :
    decodeBundle b = .construct (bundleLen b) (bundleKey b) := by
  rw [decodeBundle, h, decodeFields_construct]

/-- A transform's command carries the bundle's block, in either direction. -/
theorem blk_decodeBundle_of_transform {b : Bundle} (h : bundleOp b = 0b10#2 ∨ bundleOp b = 0b11#2) :
    (decodeBundle b).blk = bundleBlk b := by
  obtain h | h := h
  · rw [decodeBundle, h, decodeFields_encrypt, Instr.blk]
  · rw [decodeBundle, h, decodeFields_decrypt, Instr.blk]

/-- Settles O53: the decoded command holds the fields it reads, and the bundle of a `CONSTRUCT` lacks the block only. -/
theorem encodeOfDecodeKeepsReadFields : Obligations.EncodeOfDecodeKeepsReadFields := by
  intro b
  rw [bundleOp_encode, bundleLen_encode, bundleKey_encode, bundleBlk_encode]
  refine ⟨op_decodeBundle b, fun h => ?_, blk_decodeBundle_of_transform, fun h hblk => ?_⟩
  · rw [decodeBundle_of_construct h]
    exact ⟨rfl, rfl⟩
  · calc encode (decodeBundle b) = bundleOf 0b01#2 (bundleLen b) (bundleKey b) 0 := by
          rw [decodeBundle_of_construct h]; rfl
      _ = bundleOf (bundleOp b) (bundleLen b) (bundleKey b) (bundleBlk b) := by rw [h, hblk]
      _ = b := bundleOf_fields b

/-! ### Numbers as bundles -/

/-- A number that fits the port is read as the bundle with its bits. -/
theorem decodeWord_of_fits {w : Nat} (h : bundleFits w = true) :
    decodeWord w = .ok (decodeBundle (BitVec.ofNat 330 w)) := by
  have hw : (BitVec.ofNat 330 w).toNat = w := Nat.mod_eq_of_lt ((bundleFits_iff w).mp h)
  rw [← decodeWord_toNat, hw]

theorem decodeWord_of_not_fits {w : Nat} (h : bundleFits w = false) : decodeWord w = .error .bundleTooWide :=
  if_neg (by simp [h])

/-- Settles O55: `bundleFits` and `opFits` are the two bounds. -/
theorem decodingTotalOnThePort : Obligations.DecodingTotalOnThePort := by
  refine ⟨fun w hw => ⟨_, decodeWord_of_fits ((bundleFits_iff w).mpr hw)⟩, fun w hw => ?_, fun op h => ?_, fun op h => ?_⟩
  · exact decodeWord_of_not_fits (Bool.eq_false_iff.mpr fun h => Nat.not_lt.mpr hw ((bundleFits_iff w).mp h))
  · exact if_pos (by simp [opFits]; omega)
  · exact if_neg (by simp [opFits]; omega)

/-- Settles O56: the fields are read off the five numbers. -/
theorem specBundlesDecode : Obligations.SpecBundlesDecode := ⟨by decide, by decide, by decide, by decide, by decide⟩

/-! ### The step of a decoded command -/

/-- The command on a frame's ports is the one its bundle decodes to. -/
theorem decodeBundle_portBundle (p : InPorts) : decodeBundle (portBundle p) = portInstr p := by
  rw [decodeBundle, portBundle, bundleOp_bundleOf, bundleLen_bundleOf, bundleKey_bundleOf, bundleBlk_bundleOf, portInstr]

/-- Settles O7: a number that decodes is the number of its bundle, so the decoded command is the one on the ports, which
the edge accepts. -/
theorem stepRunsDecodedCommand : Obligations.StepRunsDecodedCommand := by
  intro s p rest w i hin ⟨hr, hf⟩ hrst hv hb hw _
  have hports : s.ports = p := by rw [State.ports, hin]
  have hi : portInstr p = i := by
    cases hfit : bundleFits w with
    | true =>
      rw [decodeWord_of_fits hfit, ← hb, decodeBundle_portBundle] at hw
      exact Except.ok.inj hw
    | false => simp [decodeWord_of_not_fits hfit] at hw
  have accepted : acceptedCommand s = some i :=
    acceptedCommand_eq_some.mpr ⟨hr, hf, hports ▸ hrst, hports ▸ hv, hports ▸ hi⟩
  rw [step_eq_exec_of_accepted accepted, State.nextCycle, hin]
  rfl

end Sys2Proof.Machine

/-! PROOF. The commands at their accept edges, in RUN and before reset (41_key_schedule.md section 2, 43_block_transform.md
section 4, 70_reset_and_hazards.md section 1), and what an accepted command leaves unchanged (60_exceptions.md section 3). -/

namespace Sys2Proof.Machine

/-! ### Before the first reset and in RUN -/

/-- Before the first reset edge no command has a meaning (70_reset_and_hazards.md R234). -/
theorem exec_before_reset {s : State} (hs : s.resetSeen = false) (i : Instr) : exec i s = .fault .beforeFirstReset := by
  rw [exec_eq_commandEdge]
  exact if_neg (by simp [hs])

/-- Before the first reset edge an edge without reset has no meaning (70_reset_and_hazards.md R234). -/
theorem step_before_reset {s : State} (hs : s.resetSeen = false) (hrst : s.ports.rst = false) :
    step s = .fault .beforeFirstReset := by
  simp [step_eq_edge, edge, hs, hrst]

/-- Settles O3: sampling, commands and edges all ask for the reset flag first, but for the reset edge, which sets it. -/
theorem nothingReadableBeforeFirstReset : Obligations.NothingReadableBeforeFirstReset := fun s hs =>
  ⟨fun rst => by simp [sample, hs], by simp [sampleCmdReady, hs], exec_before_reset hs, step_before_reset hs,
    fun hrst => ⟨_, step_of_rst hrst, rfl⟩⟩

/-- In RUN after reset every command is the RUN edge (70_reset_and_hazards.md R238). -/
theorem exec_of_run {s : State} (hs : s.resetSeen = true) (hf : s.fsm = .run) (i : Instr) :
    exec i s = .next (s.runEdge Config.sbox) := (exec_eq_commandEdge i s).trans (commandEdge_run hs hf)

/-- Settles O10: `exec` in RUN is the RUN edge, whose frame is `State.runEdge_frame`. -/
theorem commandsIgnoredWhileRunning : Obligations.CommandsIgnoredWhileRunning := by
  intro s i hs hf
  obtain ⟨hk, hctx, hmode⟩ := s.runEdge_frame Config.sbox
  obtain ⟨hreset, hinputs⟩ := s.runEdge_ownFields Config.sbox
  exact ⟨_, exec_of_run hs hf i, rfl, hk, hctx, hmode, hreset, hinputs, fun h31 => by simp [h31, hf]⟩

/-! ### The accept edges -/

/-- A command that answers in IDLE answers its accept effect. -/
theorem eq_acceptOf_of_exec_idle {i : Instr} {s t : State} (hf : s.fsm = .idle) (h : exec i s = .next t) :
    t = acceptOf i s := by
  rw [exec_eq_commandEdge] at h
  obtain ⟨-, ⟨hrun, -⟩ | ⟨-, e⟩⟩ := commandEdge_cases h
  · simp [hf] at hrun
  · exact e

/-- A ready core with a context loads the block of a transform and runs, without a response (43_block_transform.md
R170, R171). -/
theorem exec_transform_of_context {i : Instr} {s : State} {m : Mode} {blk : BlockBits}
    (hi : acceptOf i s = s.startTransform m blk) (hs : s.ready) (hc : s.ctxValid = true) :
    exec i s = .next { s with n1 := blk.extractLsb' 0 32, n2 := blk.extractLsb' 32 32, mode := m, rnd := 0#5,
                              fsm := .run, rspValid := false } := by
  have starts : s.startTransform m blk = (s.loadTransform m (blockOfBits blk)).endPulse := if_pos hc
  rw [exec_of_ready hs, hi, starts]
  rfl

/-- A ready core without a context answers a transform by `NO_CONTEXT` (60_exceptions.md R203). -/
theorem exec_transform_of_no_context {i : Instr} {s : State} {m : Mode} {blk : BlockBits}
    (hi : acceptOf i s = s.startTransform m blk) (hs : s.ready) (hc : s.ctxValid = false) :
    exec i s = .next { s with rspValid := true, rspCode := 0b10#2 } := by
  rw [exec_of_ready hs, hi, startTransform_of_no_context hc]
  rfl

/-- Settles O17: `ENCRYPT` starts a transform in mode encrypt. -/
theorem encryptAcceptEdge : Obligations.EncryptAcceptEdge :=
  ⟨decodeFields_encrypt, fun s blk hs hc => exec_transform_of_context (acceptOf_encrypt blk s) hs hc,
    fun s blk hs hc => exec_transform_of_no_context (acceptOf_encrypt blk s) hs hc⟩

/-- Settles O18: `DECRYPT` starts a transform in mode decrypt. -/
theorem decryptAcceptEdge : Obligations.DecryptAcceptEdge :=
  ⟨decodeFields_decrypt, fun s blk hs hc => exec_transform_of_context (acceptOf_decrypt blk s) hs hc,
    fun s blk hs hc => exec_transform_of_no_context (acceptOf_decrypt blk s) hs hc⟩

/-! ### The frames -/

@[simp] theorem acceptConstruct_inputs (len : Byte) (key : KeyBits) (s : State) :
    (acceptConstruct len key s).inputs = s.inputs := by
  obtain ⟨-, e⟩ | ⟨-, e⟩ := acceptConstruct_cases len key s <;> simp [e]

/-- Settles O19: the accept effect of `CONSTRUCT` has this frame for every length. -/
theorem constructFrame : Obligations.ConstructFrame := by
  intro s t len key hf h
  obtain rfl := eq_acceptOf_of_exec_idle hf h
  simp

/-- Settles O20: both transforms start alike, and each register the statement names is one the start leaves alone, with
a context or without. -/
theorem transformStartFrame : Obligations.TransformStartFrame := by
  intro s t i blk hi hf h
  obtain ⟨m, hm⟩ := acceptOf_transform hi s
  obtain rfl := (eq_acceptOf_of_exec_idle hf h).trans hm
  obtain ⟨hk, hctx, hblk⟩ := s.startTransform_frame m blk
  exact ⟨hk, hctx, hblk, s.startTransform_resetSeen m blk, s.startTransform_inputs m blk,
    fun hc => by simp [hc], fun hc => by simp [hc]⟩

/-- Settles O21: the accept effect of `NOP` ends the pulse and writes nothing else. -/
theorem nopFrame : Obligations.NopFrame := by
  intro s t hf h
  obtain rfl := eq_acceptOf_of_exec_idle hf h
  simp

/-! ### The corner cases of `CONSTRUCT` -/

/-- A ready core refuses every key of another length alike. -/
theorem exec_construct_invalid {s : State} (hs : s.ready) {len : Byte} (h : len ≠ 32#8) (key : KeyBits) :
    exec (.construct len key) s = .next ((s.setContext zeroSubkeys false).respond rspInvalidKeyLength) := by
  rw [exec_of_ready hs, acceptOf_construct, acceptConstruct_invalid h]

/-- A ready core takes a key of 32 bytes. -/
theorem exec_construct_valid {s : State} (hs : s.ready) (key : KeyBits) :
    exec (.construct 32#8 key) s = .next ((s.setContext (keyUnpack key) true).respond rspOk) := by
  rw [exec_of_ready hs, acceptOf_construct, acceptConstruct_valid]

/-- The zero key has zero subkeys, as a refused key leaves them (95_test_vectors.md V6). -/
theorem keyUnpack_zero : keyUnpack 0#256 = zeroSubkeys := by
  ext i hi
  simp

/-- A second `CONSTRUCT` with the same operands changes nothing more. -/
theorem acceptConstruct_idem (len : Byte) (key : KeyBits) (s : State) :
    acceptConstruct len key (acceptConstruct len key s) = acceptConstruct len key s := by
  by_cases h : len = 32#8
  · subst h; simp only [acceptConstruct_valid]; rfl
  · simp only [acceptConstruct_invalid h]; rfl

/-- Settles O15: clause by clause. An invalid length answers one state for every key, the zero key's subkeys are those
of that state, `CONSTRUCT` is idempotent, and in RUN an edge looks at no port but `rst`. -/
theorem constructCornerCases : Obligations.ConstructCornerCases := by
  refine ⟨fun s key hs => ?_, fun s len key key' hl => ?_, fun s hs => ?_, fun s s' t t' key hs hs' ht ht' => ?_,
    fun s t len key hs ht => ?_, fun s p q rest hf hrst => ?_⟩
  · have refused (len : Byte) (hl : len ≠ 32#8) := exec_construct_invalid hs hl key
    exact ⟨(refused 0#8 (by decide)).trans (refused 255#8 (by decide)).symm, _, refused 255#8 (by decide), rfl, rfl⟩
  · exact exec_congr_acceptOf (acceptConstruct_congr_key s fun h => absurd h hl)
  · refine ⟨_, _, exec_construct_valid hs 0#256, exec_construct_invalid hs (by decide) 0#256, ?_, rfl, ?_⟩ <;>
      rw [keyUnpack_zero]
    · exact fun i => zeroSubkeys_getElem i i.isLt
    · rfl
  · rw [exec_construct_valid hs] at ht
    rw [exec_construct_valid hs'] at ht'
    cases ht
    cases ht'
    rfl
  · obtain rfl := eq_acceptOf_of_exec_idle hs.right ht
    have ready : (acceptConstruct len key s).ready :=
      ⟨(acceptConstruct_resetSeen len key s).trans hs.left, by simp [hs.right]⟩
    exact ⟨ready, acceptConstruct_rspValid len key s, by
      rw [acceptOf_construct, exec_of_ready ready, acceptOf_construct, acceptConstruct_idem]⟩
  · exact edge_congr_of_run (s := { s with inputs := rest }) Config.sboxConfig hf hrst

end Sys2Proof.Machine

/-! PROOF. The host's boundary: the key length and the pseudo-instructions (00_scope.md section 3, 30_encoding.md
section 6), the duties of the host (70_reset_and_hazards.md section 4), and the levels on the pins (section 3). -/

namespace Sys2Proof.Machine

/-! ### The key length -/

/-- A length below 256 is presented as it is (00_scope.md R8). -/
theorem hostKeyLen_toNat_of_lt {n : Nat} (h : n < 256) : (hostKeyLen n).toNat = n := by
  rw [hostKeyLen, if_pos h, BitVec.toNat_ofNat, Nat.mod_eq_of_lt h]

/-- Settles O58: below 256 the length itself is presented, from 256 on 255, which is not 32. -/
theorem hostKeyLengthSaturates : Obligations.HostKeyLengthSaturates := fun n =>
  ⟨fun h => hostKeyLen_toNat_of_lt (by omega), fun h => if_neg (by omega), hostKeyLen_eq_valid_iff n⟩

/-! ### The pseudo-instructions -/

/-- The second word of a block port lies above the first. -/
theorem blockOfBits_append (bits : BlockBits) : ((blockOfBits bits).w1 ++ (blockOfBits bits).w0 : BlockBits) = bits :=
  (BitVec.extractLsb'_append_extractLsb'_eq_extractLsb' rfl).trans BitVec.extractLsb'_eq_self

/-- Four consecutive byte lanes of the block port are one little-endian word of it. -/
theorem extractLsb'_eq_wordOfBytes {bits : BlockBits} {lane : Fin 8 → Byte}
    (h : ∀ j : Fin 8, bits.extractLsb' (8 * j.val) 8 = lane j) (i : Fin 8) (hi : i.val + 3 < 8) :
    bits.extractLsb' (8 * i.val) 32 =
      wordOfBytes (lane i) (lane ⟨i + 1, by omega⟩) (lane ⟨i + 2, by omega⟩) (lane ⟨i + 3, by omega⟩) := by
  rw [wordOfBytes_eq_append, ← h, ← h, ← h, ← h,
    BitVec.extractLsb'_append_extractLsb'_eq_extractLsb' (by simp only; omega),
    BitVec.extractLsb'_append_extractLsb'_eq_extractLsb' (by simp only; omega),
    BitVec.extractLsb'_append_extractLsb'_eq_extractLsb' (by simp only; omega)]

/-- Entry `j` of the default order is byte `j` (00_scope.md R9). -/
theorem orderLE_getElem : ∀ j : Fin 8, Config.orderLE[j] = j := by decide

theorem expandBlockLine_of_ok (line : Word → Word → ScriptLine) {order : BlockByteOrder} {bytes : List Byte}
    {bits : BlockBits} (h : blockBytesToBits order bytes = .ok bits) :
    expandBlockLine line order bytes = .ok [line (blockOfBits bits).w0 (blockOfBits bits).w1, .wait] := by
  rw [expandBlockLine, h]
  rfl

theorem expandBlockLine_of_error (line : Word → Word → ScriptLine) {order : BlockByteOrder} {bytes : List Byte}
    {e : HostError} (h : blockBytesToBits order bytes = .error e) : expandBlockLine line order bytes = .error e := by
  rw [expandBlockLine, h]
  rfl

/-- Settles O57: the lanes of the block are the bytes the order names, and each word is four lanes little-endian. -/
theorem pseudoInstructionsExpand : Obligations.PseudoInstructionsExpand := by
  refine ⟨fun order key => ⟨fun h => if_pos h, fun h => if_neg h⟩, fun order bytes => ?_⟩
  obtain ⟨hw, e⟩ | ⟨hw, hb, e⟩ | ⟨hw, hb, bits, e, lanes⟩ := blockBytesToBits_cases order bytes
  · have refused line := expandBlockLine_of_error line e
    exact ⟨fun h => by simp [hw] at h, fun h => by simp [hw] at h, fun _ => ⟨refused _, refused _⟩⟩
  · have refused line := expandBlockLine_of_error line e
    exact ⟨fun _ h => absurd h hb, fun _ _ => ⟨refused _, refused _⟩, fun h => by simp [hw] at h⟩
  · have expanded line := expandBlockLine_of_ok line e
    refine ⟨fun _ _ => ⟨_, _, expanded _, expanded _, ?_, ?_⟩, fun _ h => absurd hb h, fun h => by simp [hw] at h⟩
    · rwa [blockOfBits_append]
    · rintro rfl
      have laneLE (j : Fin 8) : bits.extractLsb' (8 * j.val) 8 = bytes.getD j.val 0 := by
        rw [lanes j, orderLE_getElem j]
      exact ⟨extractLsb'_eq_wordOfBytes (lane := fun j => bytes.getD j.val 0) laneLE 0 (by decide),
        extractLsb'_eq_wordOfBytes (lane := fun j => bytes.getD j.val 0) laneLE 4 (by decide)⟩

/-! ### The duties of the host -/

/-- A script is taken exactly when its first line and its other lines are. -/
theorem scriptActions_cons_ok_iff (order : BlockByteOrder) (line : ScriptLine) (rest : List ScriptLine) :
    (∃ todo, scriptActions order (line :: rest) = .ok todo) ↔
      (∃ lines, expandLine order line = .ok lines) ∧ ∃ todo, scriptActions order rest = .ok todo := by
  cases hline : expandLine order line <;> cases hrest : scriptActions order rest <;>
    simp [scriptActions, hline, hrest, Except.map]

/-- Under an admitted byte order a script is taken exactly when every line is well formed. -/
theorem scriptActions_ok_iff {order : BlockByteOrder} (ho : order.wf = true) (script : List ScriptLine) :
    (∃ todo, scriptActions order script = .ok todo) ↔ ∀ l ∈ script, l.wf = true := by
  induction script with
  | nil => simp [scriptActions]
  | cons line rest ih => rw [scriptActions_cons_ok_iff, ih, expandLine_ok_iff order ho, List.forall_mem_cons]

/-- A program on values that are no configuration is refused (40_table_rom.md R107). -/
theorem runProgram_of_not_admitted {sb : SBox} (h : admitSbox sb = none) (order : BlockByteOrder)
    (script : List ScriptLine) (fuel : Nat) (s : State) : runProgram sb order script fuel s = .error .sboxRow := by
  simp only [runProgram, h]

/-- A program with a refused script never reaches the core (70_reset_and_hazards.md R246). -/
theorem runProgram_of_refused {sb : SBox} {cfg : SBoxConfig} (h : admitSbox sb = some cfg) {order : BlockByteOrder}
    {script : List ScriptLine} {e : HostError} (he : scriptActions order script = .error e) (fuel : Nat) (s : State) :
    runProgram sb order script fuel s = .error e := by
  simp only [runProgram, h, he]

/-- A program that is taken drives its actions from the reset state (70_reset_and_hazards.md R235). -/
theorem runProgram_of_taken {sb : SBox} {cfg : SBoxConfig} (h : admitSbox sb = some cfg) {order : BlockByteOrder}
    {script : List ScriptLine} {todo : List HostAction} (ht : scriptActions order script = .ok todo) (fuel : Nat)
    (s : State) :
    runProgram sb order script fuel s =
      .ok (runScript cfg fuel (HostState.start todo) { State.reset with inputs := s.inputs }) := by
  simp only [runProgram, h, ht, edge_resetting]

/-- Settles O60: the driver samples before it drives, a script is taken line by line, and a program admits its S-boxes,
takes its script and resets the core before it drives anything. -/
theorem hostDutiesEnforced : Obligations.HostDutiesEnforced := by
  refine ⟨fun cfg fuel h s hs => runScript_before_reset cfg fuel h hs, fun order script ho => scriptActions_ok_iff ho script,
    Config.sboxConfig.wf, fun sb order script fuel s => ⟨fun h => ?_, fun h => ?_⟩⟩
  · have refused := admitSbox_of_not_wf h
    exact ⟨refused, runProgram_of_not_admitted refused order script fuel s⟩
  · have admitted := admitSbox_of_wf h
    exact ⟨_, admitted, rfl, fun e he => runProgram_of_refused admitted he fuel s,
      fun todo ht => runProgram_of_taken admitted ht fuel s⟩

/-! ### The levels on the pins -/

@[simp] theorem levelBit_low : levelBit .low = some false := rfl
@[simp] theorem levelBit_high : levelBit .high = some true := rfl

/-- A cycle whose control wires are not all defined is refused. -/
theorem samplePins_undefinedControl {p : Pins}
    (h : levelBit p.rst = none ∨ levelBit p.cmdValid = none ∨ levelsBits 2 p.cmdOp = none) :
    samplePins p = .error .undefinedControl := by
  unfold samplePins
  split
  · next hr hv ho => simp [hr, hv, ho] at h
  · rfl

section
variable {p : Pins} {op : BitVec 2} (hr : p.rst ≠ .undefined) (ho : levelsBits 2 p.cmdOp = some op)
include hr ho

/-- With `cmd_valid = 0` the operand wires are not looked at. -/
theorem samplePins_of_not_valid (hv : p.cmdValid = .low) :
    samplePins p =
      .ok { rst := decide (p.rst = .high), cmdValid := false, cmdOp := op, keyLen := 0, keyIn := 0, blkIn := 0 } := by
  simp [samplePins, levelBit_of_defined hr, hv, ho]

/-- A presented command with an undefined operand wire is refused. -/
theorem samplePins_undefinedOperand (hv : p.cmdValid = .high)
    (h : levelsBits 8 p.keyLen = none ∨ levelsBits 256 p.keyIn = none ∨ levelsBits 64 p.blkIn = none) :
    samplePins p = .error .undefinedOperand := by
  simp only [samplePins, levelBit_of_defined hr, hv, levelBit_high, ho, if_true]
  split
  · next hl hk hb => simp [hl, hk, hb] at h
  · rfl

/-- A presented command whose wires are all defined is taken. -/
theorem samplePins_of_valid (hv : p.cmdValid = .high) {len : Byte} {key : KeyBits} {blk : BlockBits}
    (hl : levelsBits 8 p.keyLen = some len) (hk : levelsBits 256 p.keyIn = some key)
    (hb : levelsBits 64 p.blkIn = some blk) :
    samplePins p =
      .ok { rst := decide (p.rst = .high), cmdValid := true, cmdOp := op, keyLen := len, keyIn := key, blkIn := blk } := by
  simp [samplePins, levelBit_of_defined hr, hv, ho, hl, hk, hb]

end

/-- Settles O59: a port has bits exactly when its wires are defined (`levelsBits_of_defined`, `levelsBits_of_undefined`),
and `samplePins` asks for the control bits always and for the operand bits with `cmd_valid`. -/
theorem undefinedLevelsRefused : Obligations.UndefinedLevelsRefused := by
  refine fun p => ⟨fun h => ?_, fun hr hv ho h => ?_, fun hr hv ho => ?_, fun hr hv ho hl hk hb => ?_⟩
  · exact samplePins_undefinedControl (h.imp (congrArg levelBit) (.imp (congrArg levelBit) levelsBits_of_undefined))
  · obtain ⟨op, hop, -⟩ := levelsBits_of_defined ho
    exact samplePins_undefinedOperand hr hop hv
      (h.imp levelsBits_of_undefined (.imp levelsBits_of_undefined levelsBits_of_undefined))
  · obtain ⟨op, hop, opBits⟩ := levelsBits_of_defined ho
    exact ⟨_, samplePins_of_not_valid hr hop hv, rfl, rfl, opBits⟩
  · obtain ⟨op, hop, opBits⟩ := levelsBits_of_defined ho
    obtain ⟨len, hlen, lenBits⟩ := levelsBits_of_defined hl
    obtain ⟨key, hkey, keyBits⟩ := levelsBits_of_defined hk
    obtain ⟨blk, hblk, blkBits⟩ := levelsBits_of_defined hb
    exact ⟨_, samplePins_of_valid hr hop hv hlen hkey hblk, rfl, rfl, opBits, lenBits, keyBits, blkBits⟩

end Sys2Proof.Machine
